-- ==== Sys2Proof/Word.lean ====
section
/-! DEFINITION. The two words of the block: the 32-bit bus datum (R5, DATA_W) and the 40-bit transaction word (R60). -/

namespace Sys2Proof

/-- A bus datum: every access moves one 32-bit word (R5, R42). -/
abbrev Word := BitVec 32

/-- A bus transaction word `T`, 40 bits (R60). -/
abbrev TxnWord := BitVec 40

end Sys2Proof
end

