-- ==== Sys2Proof/Syntax.lean ====
section
/-! DEFINITION. The sixteen register bus transactions (R62), one constructor per row of spec/opcode_table.json. -/

namespace Sys2Proof

/-- A decoded bus transaction. A read carries no operand, since `WDATA` is ignored on a read (R60, R63);
a write carries its `wdata` as it stands (R61). -/
inductive Instr where
  | rdCtrla                  -- R80
  | rdCtrlb                  -- R81
  | rdBaud                   -- R82
  | rdAddr                   -- R83
  | rdStatus                 -- R84
  | rdEng0                   -- R85
  | rdEng1                   -- R86
  | rdEng2                   -- R87
  | wrCtrla (d : Word)       -- R71
  | wrCtrlb (d : Word)       -- R72
  | wrBaud (d : Word)        -- R73
  | wrAddr (d : Word)        -- R74
  | wrStatus (d : Word)      -- R88
  | wrEng0 (d : Word)        -- R89
  | wrEng1 (d : Word)        -- R90
  | wrEng2 (d : Word)        -- R91
  deriving DecidableEq, Repr

end Sys2Proof
end

