-- ==== Sys2Proof/WellFormed.lean ====
section
/-! DEFINITION. What makes a transaction word spell a transaction (R60, R63), and the trivial check on a decoded one. -/

namespace Sys2Proof

/-- The reserved header bits `T[38:37]` are 00 (R60, R63). -/
def TxnWord.reservedClear (t : TxnWord) : Bool := t.extractLsb' 37 2 == 0#2

/-- The offset is a multiple of 4: `T[33:32] = 00` (R42, R63). -/
def TxnWord.aligned (t : TxnWord) : Bool := t.extractLsb' 32 2 == 0#2

/-- A word spells a transaction exactly when both checks pass: 16 of the 256 header bytes (R63). -/
def TxnWord.wellFormed (t : TxnWord) : Bool := TxnWord.reservedClear t && TxnWord.aligned t

/-- Every decoded transaction is well formed: no operand of one is constrained, since reserved bits of
`wdata` are ignored, not illegal (R61, R63). The checks of R63 are on the word, `TxnWord.wellFormed`. -/
def Instr.wellFormed : Instr → Bool
  | .rdCtrla | .rdCtrlb | .rdBaud | .rdAddr | .rdStatus | .rdEng0 | .rdEng1 | .rdEng2 => true
  | .wrCtrla _ | .wrCtrlb _ | .wrBaud _ | .wrAddr _ | .wrStatus _ | .wrEng0 _ | .wrEng1 _ | .wrEng2 _ => true

end Sys2Proof
end

