-- ==== Sys2Proof/Decode.lean ====
section
/-! DEFINITION. The decoder of R68, total on 40-bit words, and the encoder beside it. -/

namespace Sys2Proof

/-- The header byte `H = T[39:32]` (R60). -/
def TxnWord.header (t : TxnWord) : BitVec 8 := t.extractLsb' 32 8

/-- The write-enable bit `T[39]` (R60). -/
def TxnWord.we (t : TxnWord) : Bool := t.getLsbD 39

/-- The byte offset `T[36:32]`, never scaled or shifted (R60, R61). -/
def TxnWord.offset (t : TxnWord) : BitVec 5 := t.extractLsb' 32 5

/-- The write data `T[31:0]` (R60). -/
def TxnWord.wdata (t : TxnWord) : Word := t.extractLsb' 0 32

/-- The reserved header bits `T[38:37]` (R60, R63). -/
def TxnWord.reserved (t : TxnWord) : BitVec 2 := t.extractLsb' 37 2

/-- Why a word spells no transaction (R63). Both reasons are `X_BAD_TXN` to the machine (R150). -/
inductive DecodeError where
  | reservedHeader     -- T[38:37] ≠ 00
  | unalignedOffset    -- T[33:32] ≠ 00
  deriving DecidableEq, Repr

/-- The read transaction of an aligned offset: `RD(reg_of(offset))` (R62, R68). -/
def readAt (offset : Nat) : Option Instr :=
  match offset with
  | 0x00 => some .rdCtrla
  | 0x04 => some .rdCtrlb
  | 0x08 => some .rdBaud
  | 0x0C => some .rdAddr
  | 0x10 => some .rdStatus
  | 0x14 => some .rdEng0
  | 0x18 => some .rdEng1
  | 0x1C => some .rdEng2
  | _ => none

/-- The write transaction of an aligned offset: `WR(reg_of(offset), d)` (R62, R68). -/
def writeAt (offset : Nat) (d : Word) : Option Instr :=
  match offset with
  | 0x00 => some (.wrCtrla d)
  | 0x04 => some (.wrCtrlb d)
  | 0x08 => some (.wrBaud d)
  | 0x0C => some (.wrAddr d)
  | 0x10 => some (.wrStatus d)
  | 0x14 => some (.wrEng0 d)
  | 0x18 => some (.wrEng1 d)
  | 0x1C => some (.wrEng2 d)
  | _ => none

/-- The decoder of R68. It is total: a word outside the map of R62 is rejected by name. -/
def decode (t : TxnWord) : Except DecodeError Instr :=
  if !(TxnWord.reserved t == 0#2) then .error .reservedHeader
  else
    let i := if TxnWord.we t then writeAt (TxnWord.offset t).toNat (TxnWord.wdata t)
             else readAt (TxnWord.offset t).toNat
    match i with
    | some i => .ok i
    | none => .error .unalignedOffset

/-- The header byte of a transaction (R62). -/
def headerOf : Instr → BitVec 8
  | .rdCtrla => 0x00#8
  | .rdCtrlb => 0x04#8
  | .rdBaud => 0x08#8
  | .rdAddr => 0x0C#8
  | .rdStatus => 0x10#8
  | .rdEng0 => 0x14#8
  | .rdEng1 => 0x18#8
  | .rdEng2 => 0x1C#8
  | .wrCtrla _ => 0x80#8
  | .wrCtrlb _ => 0x84#8
  | .wrBaud _ => 0x88#8
  | .wrAddr _ => 0x8C#8
  | .wrStatus _ => 0x90#8
  | .wrEng0 _ => 0x94#8
  | .wrEng1 _ => 0x98#8
  | .wrEng2 _ => 0x9C#8

/-- The write data of a transaction; a read is encoded with `WDATA = 0` (R63, R68). -/
def wdataOf : Instr → Word
  | .rdCtrla | .rdCtrlb | .rdBaud | .rdAddr | .rdStatus | .rdEng0 | .rdEng1 | .rdEng2 => 0#32
  | .wrCtrla d | .wrCtrlb d | .wrBaud d | .wrAddr d => d
  | .wrStatus d | .wrEng0 d | .wrEng1 d | .wrEng2 d => d

/-- A transaction word put together: the header byte in the high bits, `WDATA` in the low 32 bits (R43, R60). -/
def txnOf (h : BitVec 8) (d : Word) : TxnWord := h ++ d

/-- The encoder of R68. -/
def encode (i : Instr) : TxnWord := txnOf (headerOf i) (wdataOf i)

/-- Whether the transaction is a read (`WE = 0`). -/
def Instr.isRead : Instr → Bool
  | .rdCtrla | .rdCtrlb | .rdBaud | .rdAddr | .rdStatus | .rdEng0 | .rdEng1 | .rdEng2 => true
  | .wrCtrla _ | .wrCtrlb _ | .wrBaud _ | .wrAddr _ | .wrStatus _ | .wrEng0 _ | .wrEng1 _ | .wrEng2 _ => false

/-- What the decoder reads from an instruction whose bits, numbered as spec/opcode_table.json numbers
them, are `w`: a row is one 40-bit word (R60), so the word is `w` itself; bits above `nbits` are 0. -/
def decodeTableWord (nbits w : Nat) : Option Instr :=
  match decode (BitVec.ofNat 40 (w % 2 ^ nbits)) with
  | .ok i => some i
  | .error _ => none

end Sys2Proof
end

