-- ==== Sys2Proof/Config.lean ====
section
/-! DEFINITION. What an implementation or the surroundings fix and the spec leaves open (R5, R10, R31): opaque
constants without a body. -/

namespace Sys2Proof

/-- The settings of the SPI front-end: (pads, dord, cpol, cpha, chsize, baudval) (R5, R127, R134). -/
structure SpiSettings where
  pads : BitVec 6
  dord : Bool
  cpol : Bool
  cpha : Bool
  chsize : BitVec 3
  baudval : BitVec 16
  deriving DecidableEq, Repr, Inhabited

/-- Free value: `eng_status`, bits 14:0 of a status read, by instance and draw (R31, R35, R84). Log 3. -/
opaque Config.engStatus : Nat → Nat → BitVec 15

/-- Free value: `eng_rdata`, the granted engine's answer to a forwarded read, by instance and draw (R31, R35, R85 to
R87). Log 3. -/
opaque Config.engRdata : Nat → Nat → BitVec 32

/-- Free value: `eng_busy`, read by `activity` alone, by instance and look (R29, R31, R35, R110). Log 3. -/
opaque Config.engBusy : Nat → Nat → Bool

/-- Free value: whether SYNC steps before SEQ where State.schedule is used up and both have a step, by instance and
choice (R10, R35, R100). Log 2. -/
opaque Config.syncFirst : Nat → Nat → Bool

/-- Open parameter behind `WAIT_LIMIT` (R5, R138): `none`, or one less than the limit. Log 11. -/
opaque Config.waitLimitPred : Option Nat

/-- `WAIT_LIMIT`: `none` (unbounded, the default) or a number of polls (R5, R138), here at least 1 (log 11). -/
def Config.waitLimit : Option Nat := Config.waitLimitPred.map (· + 1)

/-- Open parameter `SPI_BAUD_FN`: divisor to register value, a total function of the divisor alone (R5, R133).
Log 12. -/
opaque Config.spiBaudFn : Nat → BitVec 16

/-- Open parameter `SPI_DEFAULTS`: the settings `begin` applies (R5, R135). Log 12. -/
opaque Config.spiDefaults : SpiSettings

/-- Open parameter: one less than the number of block instances on the chip (R5, R35). Log 16. -/
opaque Config.nInstancesPred : Nat

/-- `N_INSTANCES`, at least 1 (R5, R35). -/
def Config.nInstances : Nat := Config.nInstancesPred + 1

end Sys2Proof
end

