-- ==== Sys2Proof/Machine/State.lean ====
section
/-! DEFINITION. The state of one block instance (R20 to R36), the reasons a step stops, and the state after hardware
reset (R34, R170). -/

namespace Sys2Proof.Machine

/-- Control register A by fields (R22). Reserved bits are not stored: they read 0 and ignore writes (D28). -/
structure CtrlA where
  swrst : Bool := false          -- bit 0
  enable : Bool := false         -- bit 1
  mode : BitVec 3 := 0#3         -- bits 4:2
  sampr : BitVec 3 := 0#3        -- bits 15:13
  pads : BitVec 6 := 0#6         -- bits 21:16
  form : BitVec 4 := 0#4         -- bits 27:24
  cpha : Bool := false           -- bit 28
  cpol : Bool := false           -- bit 29
  dord : Bool := false           -- bit 30
  deriving DecidableEq, Repr

/-- Control register B by fields (R23). CMD is a write strobe and is never stored. -/
structure CtrlB where
  chsize : BitVec 3 := 0#3       -- bits 2:0
  sbmode : Bool := false         -- bit 6
  pmode : Bool := false          -- bit 13
  ackact : Bool := false         -- bit 18
  deriving DecidableEq, Repr

/-- The I2C slave address register by fields (R25). -/
structure AddrReg where
  gencen : Bool := false         -- bit 0
  addr : BitVec 7 := 0#7         -- bits 7:1
  deriving DecidableEq, Repr

/-- Which synchronisation is pending (R27). -/
inductive SyncOp where
  | none | reset | enable | disable | cmd
  deriving DecidableEq, Repr

/-- The personality a mode code selects, or NONE (R29). -/
inductive Personality where
  | none | uart | spi | i2cs | i2cm
  deriving DecidableEq, Repr

/-- The role a command is delivered to (R32, R107). -/
inductive Role where
  | master | slave
  deriving DecidableEq, Repr

/-- An event of the history (R32). -/
inductive Event where
  | grant (p : Personality)
  | release (p : Personality)
  | engReset
  | cmd (role : Role) (code : BitVec 2)
  | engWrite (p : Personality) (offset : BitVec 5) (data : Word)
  | engRead (p : Personality) (offset : BitVec 5)
  deriving DecidableEq, Repr

/-- The fault codes of R150. -/
inductive FaultCode where
  | fSync          -- F_SYNC (1)
  deriving DecidableEq, Repr

/-- The refusal codes of R150. -/
inductive RefusedCode where
  | badTxn         -- X_BAD_TXN (1)
  | enableNone     -- X_ENABLE_NONE (2)
  | role           -- X_ROLE (3)
  deriving DecidableEq, Repr

/-- The sequencer requests (R66), with their operands at the widths of R126 to R142; `roleCheck` is the shared
block of lines that R139 gives beside them, the last four are the `begin` and `end` of the UART and I2C front-ends
(R137). -/
inductive Request where
  | waitSync                                                              -- R121
  | waitReset                                                             -- R122
  | reset                                                                 -- R123
  | enable                                                                -- R124
  | disable                                                               -- R125
  | initUart (sampr : BitVec 3) (pads : BitVec 6) (form : BitVec 4) (dord : Bool)
      (chsize : BitVec 3) (sbmode pmode : Bool) (baudval : BitVec 16)     -- R126
  | initSpi (settings : SpiSettings)                                      -- R127
  | initI2cm (baudval : BitVec 16)                                        -- R128
  | initI2cs (addr : BitVec 7) (gencen : Bool)                            -- R129
  | setDordSpi (v : Bool)                                                 -- R131
  | setClkmodeSpi (cpol cpha : Bool)                                      -- R132
  | setBaudSpi (divisor : Nat)                                            -- R133
  | configSpi (settings : SpiSettings)                                    -- R134
  | beginSpi                                                              -- R135
  | endSpi                                                                -- R136
  | isMaster                                                              -- R139
  | ack                                                                   -- R140
  | nack                                                                  -- R141
  | command (code : BitVec 2)                                             -- R142
  | roleCheck                                                             -- R139
  | beginUart (sampr : BitVec 3) (pads : BitVec 6) (form : BitVec 4) (dord : Bool)
      (chsize : BitVec 3) (sbmode pmode : Bool) (baudval : BitVec 16)     -- R137
  | beginI2cm (baudval : BitVec 16)                                       -- R137
  | beginI2cs (addr : BitVec 7) (gencen : Bool)                           -- R137
  | endFrontEnd                                                           -- R137
  deriving DecidableEq, Repr

/-- The scratch locals of a request (R20, R33). -/
structure Locals where
  a : Word := 0#32
  b : Word := 0#32
  s : Word := 0#32
  deriving DecidableEq, Repr

/-- One expansion in progress: the request, its step pointer `upc` (R21) and its locals (R33). `nested` says that
a line of the frame below called it (R120); `polls` counts the unsuccessful polls of a wait (R138); `value` is the
bit `SEQ_IS_MASTER` returns (R139). Log 8. -/
structure Frame where
  req : Request
  nested : Bool := false
  upc : Nat := 0
  locals : Locals := {}
  polls : Nat := 0
  value : Option Bool := none
  deriving DecidableEq, Repr

/-- How the latest request ended (R120, R138, R150). -/
inductive RequestOutcome where
  | ok (value : Option Bool)
  | fault (c : FaultCode)
  | refused (c : RefusedCode)
  | timeout
  deriving DecidableEq, Repr

/-- One turn of the schedule (R10): a transaction word the host issues, a step of SYNC, a request handed to the
sequencer, or a micro-step of SEQ (R9). Log 2. -/
inductive Turn where
  | host (t : TxnWord)
  | sync
  | request (r : Request)
  | seq
  deriving DecidableEq, Repr

/-- The state of one block instance. -/
structure State where
  ctrla : CtrlA                                  -- R22
  ctrlb : CtrlB                                  -- R23
  baud : BitVec 16                               -- R24
  addr : AddrReg                                 -- R25
  syncOp : SyncOp                                -- R27
  enEff : Bool                                   -- R27
  modeLocked : Bool                              -- R27
  cmdPending : Option (Role × BitVec 2)          -- R27
  fault : Option FaultCode                       -- R28
  refused : Option RefusedCode                   -- R28
  hist : List Event                              -- R32, oldest first
  spiInited : Bool                               -- R33
  frames : List Frame                            -- R21, R33: the running expansion first
  outcome : Option RequestOutcome                -- R120, R150: how the latest request ended
  reads : List Word                              -- R11, R60: the `rdata` of every read, oldest first
  clkReady : Bool                                -- R10, R172: premise, an input
  schedule : List Turn                           -- R10: which agent steps next, the model's own
  handle : Nat                                   -- R35: the Peripheral Handle, which instance this is
  draws : Nat                                    -- the model's own: how many engine inputs were drawn
  picks : Nat                                    -- the model's own: how many turns were left to chance
  deriving DecidableEq, Repr

/-- Why the machine stops with a fault. -/
inductive Fault where
  /-- The state carries the mark `fault`, and "once either is set, this spec gives no further step a meaning" (R28).
  Raised by every step of every agent from such a state. Safe: the chip would carry on (R151). -/
  | marked (c : FaultCode)
  deriving DecidableEq, Repr

/-- Why a step has no meaning. -/
inductive Refusal where
  /-- Raised by an arm of `exec` whose instruction has no meaning yet. Safe. -/
  | notModelled (mnemonic : String)
  /-- The state carries the mark `refused`, and no further step has a meaning (R28). Raised by every step of every
  agent from such a state. Safe: the chip would carry on (R151). -/
  | marked (c : RefusedCode)
  /-- The instance's clocks are not configured and running: "with `clk_ready` false this spec says nothing" and "a
  model refuses such a launch" (R172). Raised by every step. Safe. -/
  | clkNotReady
  deriving DecidableEq, Repr

/-- The state after hardware reset: the column "after hardware reset" of R34 (R170). The fields the spec gives no
value there (`outcome`, `reads`, `clkReady`, `schedule`, `handle`, `draws`, `picks`) hold values named in logs 17, 4, 5,
6, 16, 3 and 2. -/
def State.reset : State where
  ctrla := {}
  ctrlb := {}
  baud := 0#16
  addr := {}
  syncOp := .none
  enEff := false
  modeLocked := true
  cmdPending := none
  fault := none
  refused := none
  hist := []
  spiInited := false
  frames := []
  outcome := none
  reads := []
  clkReady := true
  schedule := []
  handle := 0
  draws := 0
  picks := 0

end Sys2Proof.Machine
end

