-- ==== Sys2Proof/Machine/Flags.lean ====
section
/-! DEFINITION. The values derived from the state and never stored (R29, R32, R105, R150): the block's only flags. -/

namespace Sys2Proof.Machine

/-- `pers(m)`: the personality a mode code selects (R29). -/
def pers (m : BitVec 3) : Personality :=
  match m.toNat with
  | 1 => .uart
  | 3 => .spi
  | 4 => .i2cs
  | 5 => .i2cm
  | _ => .none

/-- `SYNCBUSY`: a synchronisation is pending (R29). -/
def State.syncBusy (s : State) : Bool := s.syncOp != .none

/-- `grant`: the personality the arbiter grants the block to (R29, R105). -/
def State.grant (s : State) : Personality := if s.enEff then pers s.ctrla.mode else .none

/-- `en_uart` (R32, R105). -/
def State.enUart (s : State) : Bool := s.grant == .uart
/-- `en_spi` (R32, R105). -/
def State.enSpi (s : State) : Bool := s.grant == .spi
/-- `en_i2cm` (R32, R105). -/
def State.enI2cm (s : State) : Bool := s.grant == .i2cm
/-- `en_i2cs` (R32, R105). -/
def State.enI2cs (s : State) : Bool := s.grant == .i2cs

/-- The role a granted personality gives a command, if any (R72, R107). -/
def roleOf : Personality → Option Role
  | .i2cm => some .master
  | .i2cs => some .slave
  | .none => none
  | .uart => none
  | .spi => none

/-- The seven values of `seq_state` (R29, R111). -/
inductive SeqState where
  | disabled | resetting | postreset | configured | enabling | enabled | disabling
  deriving DecidableEq, Repr

/-- `seq_state` (R29). -/
def State.seqState (s : State) : SeqState :=
  match s.syncOp with
  | .reset => .resetting
  | .enable => .enabling
  | .disable => .disabling
  | .cmd => .enabled
  | .none =>
    if s.ctrla.enable then .enabled
    else if s.modeLocked then .disabled
    else if pers s.ctrla.mode != .none then .configured
    else .postreset

/-- The states of the document's chain (R111). -/
inductive ChainState where
  | disabled | softwareReset | configured | enabled
  deriving DecidableEq, Repr

/-- The mapping of `seq_state` to the document's chain (R111). -/
def SeqState.chain : SeqState → ChainState
  | .disabled => .disabled
  | .disabling => .disabled
  | .resetting => .softwareReset
  | .postreset => .softwareReset
  | .configured => .configured
  | .enabling => .enabled
  | .enabled => .enabled

/-- Busy or Idle inside ENABLED (R29, R110). -/
inductive Activity where
  | busy | idle
  deriving DecidableEq, Repr

/-- `activity` for a value of the draw `eng_busy`; `none` in every `seq_state` where R29 leaves it undefined. -/
def State.activityWith (s : State) (engBusy : Bool) : Option Activity :=
  if s.seqState = .enabled then
    if s.syncOp = .cmd ∨ engBusy = true then some .busy else some .idle
  else none

/-- `activity` (R29, R110); it gates no rule of the block. Each look at it, by its number, is a fresh draw. Log 3. -/
def State.activity (look : Nat) (s : State) : Option Activity := s.activityWith (Config.engBusy s.handle look)

/-- The configuration presented to all four engines, `cfg` (R32, R108). -/
structure EngineCfg where
  sampr : BitVec 3
  pads : BitVec 6
  form : BitVec 4
  cpha : Bool
  cpol : Bool
  dord : Bool
  chsize : BitVec 3
  sbmode : Bool
  pmode : Bool
  ackact : Bool
  baud : BitVec 16
  addr : BitVec 7
  gencen : Bool
  deriving DecidableEq, Repr

/-- `cfg` as a function of the state (R32). -/
def State.cfg (s : State) : EngineCfg where
  sampr := s.ctrla.sampr
  pads := s.ctrla.pads
  form := s.ctrla.form
  cpha := s.ctrla.cpha
  cpol := s.ctrla.cpol
  dord := s.ctrla.dord
  chsize := s.ctrlb.chsize
  sbmode := s.ctrlb.sbmode
  pmode := s.ctrlb.pmode
  ackact := s.ctrlb.ackact
  baud := s.baud
  addr := s.addr.addr
  gencen := s.addr.gencen

/-- `rdata`: the result of the latest read transaction (R60); 0 where nothing has been read, which no rule reads. Log 4. -/
def State.rdata (s : State) : Word := s.reads.getLastD 0#32

/-- `upc`: the step pointer of the running expansion, 0 when none is in progress (R21, R34). -/
def State.upc (s : State) : Nat :=
  match s.frames with
  | [] => 0
  | f :: _ => f.upc

/-- A state that carries a mark is quiescent and never final (R28, R151). -/
def State.marked (s : State) : Bool := s.fault.isSome || s.refused.isSome

/-- The number R150 gives a fault code. -/
def FaultCode.number : FaultCode → Nat
  | .fSync => 1

/-- The number R150 gives a refusal code. -/
def RefusedCode.number : RefusedCode → Nat
  | .badTxn => 1
  | .enableNone => 2
  | .role => 3

end Sys2Proof.Machine
end

