-- ==== Sys2Proof/Machine/Operands.lean ====
section
/-! DEFINITION. The fields of a written word (R61, R75 L1), the register images a read returns (R80 to R83) and the
constants for building `WDATA` (R67). -/

namespace Sys2Proof.Machine

/-! Fields cut out of `wdata` (R22 to R26, R61). -/

/-- `d[0]` of a CTRLA write: SWRST. -/
def wSwrst (d : Word) : Bool := d.getLsbD 0
/-- `d[1]` of a CTRLA write: ENABLE. -/
def wEnable (d : Word) : Bool := d.getLsbD 1
/-- `d[4:2]` of a CTRLA write: MODE. -/
def wMode (d : Word) : BitVec 3 := d.extractLsb' 2 3
/-- `d[15:13]` of a CTRLA write: SAMPR. -/
def wSampr (d : Word) : BitVec 3 := d.extractLsb' 13 3
/-- `d[21:16]` of a CTRLA write: PADS. -/
def wPads (d : Word) : BitVec 6 := d.extractLsb' 16 6
/-- `d[27:24]` of a CTRLA write: FORM. -/
def wForm (d : Word) : BitVec 4 := d.extractLsb' 24 4
/-- `d[28]` of a CTRLA write: CPHA. -/
def wCpha (d : Word) : Bool := d.getLsbD 28
/-- `d[29]` of a CTRLA write: CPOL. -/
def wCpol (d : Word) : Bool := d.getLsbD 29
/-- `d[30]` of a CTRLA write: DORD. -/
def wDord (d : Word) : Bool := d.getLsbD 30
/-- `d[2:0]` of a CTRLB write: CHSIZE. -/
def wChsize (d : Word) : BitVec 3 := d.extractLsb' 0 3
/-- `d[6]` of a CTRLB write: SBMODE. -/
def wSbmode (d : Word) : Bool := d.getLsbD 6
/-- `d[13]` of a CTRLB write: PMODE. -/
def wPmode (d : Word) : Bool := d.getLsbD 13
/-- `d[17:16]` of a CTRLB write: CMD. -/
def wCmd (d : Word) : BitVec 2 := d.extractLsb' 16 2
/-- `d[18]` of a CTRLB write: ACKACT. -/
def wAckact (d : Word) : Bool := d.getLsbD 18
/-- `d[15:0]` of a BAUD write. -/
def wBaud (d : Word) : BitVec 16 := d.extractLsb' 0 16
/-- `d[0]` of an ADDR write: GENCEN. -/
def wGencen (d : Word) : Bool := d.getLsbD 0
/-- `d[7:1]` of an ADDR write: ADDR. -/
def wAddr (d : Word) : BitVec 7 := d.extractLsb' 1 7

/-! Constants for building `WDATA` (R22, R23, R67). -/

/-- One flag at bit `i` of a word. -/
def flagAt (v : Bool) (i : Nat) : Word := if v then 1#32 <<< i else 0#32
/-- A field with its lowest bit at bit `i` of a word. -/
def fieldAt {w : Nat} (v : BitVec w) (i : Nat) : Word := v.setWidth 32 <<< i

def ctrlaSwrst : Word := 0x00000001#32
def ctrlaEnable : Word := 0x00000002#32
def ctrlaModeMask : Word := 0x0000001C#32
def ctrlaCfgMask : Word := 0x7F3FE000#32
def ctrlaCpha : Word := 0x10000000#32
def ctrlaCpol : Word := 0x20000000#32
def ctrlaDord : Word := 0x40000000#32
def modeUart : Word := 0x00000004#32
def modeSpi : Word := 0x0000000C#32
def modeI2cs : Word := 0x00000010#32
def modeI2cm : Word := 0x00000014#32
def ctrlbCfgMask : Word := 0x00002047#32
def ctrlbCmdMask : Word := 0x00030000#32
def ctrlbAckact : Word := 0x00040000#32
def statusSyncbusy : Word := 0x00008000#32
/-- Every CTRLA bit a write can act on (R67). -/
def ctrlaWmask : Word := 0x7F3FE01F#32
/-- Every CTRLB bit a write can act on (R67). -/
def ctrlbWmask : Word := 0x00072047#32
/-- Every CTRLB bit that can read 1 (R67). -/
def ctrlbRmask : Word := 0x00042047#32
def baudMask : Word := 0x0000FFFF#32
def addrMask : Word := 0x000000FF#32

/-! Register images: what a read returns (R80 to R83). -/

/-- CTRLA as read: bits 12:5, 23:22 and 31 read 0 (R22, R80). -/
def ctrlaWord (c : CtrlA) : Word :=
  flagAt c.swrst 0 ||| flagAt c.enable 1 ||| fieldAt c.mode 2 ||| fieldAt c.sampr 13 ||| fieldAt c.pads 16 |||
    fieldAt c.form 24 ||| flagAt c.cpha 28 ||| flagAt c.cpol 29 ||| flagAt c.dord 30

/-- CTRLB as read: CMD and the reserved bits read 0 (R23, R81). -/
def ctrlbWord (c : CtrlB) : Word :=
  fieldAt c.chsize 0 ||| flagAt c.sbmode 6 ||| flagAt c.pmode 13 ||| flagAt c.ackact 18

/-- BAUD as read (R24, R82). -/
def baudWord (b : BitVec 16) : Word := fieldAt b 0

/-- ADDR as read (R25, R83). -/
def addrWord (r : AddrReg) : Word := flagAt r.gencen 0 ||| fieldAt r.addr 1

/-- STATUS as read: SYNCBUSY in bit 15, the engine's status in bits 14:0, zeros above (R26, R84). -/
def statusWord (busy : Bool) (engstat : BitVec 15) : Word := flagAt busy 15 ||| fieldAt engstat 0

/-- Byte lane `k` of a word where a platform places the window in a byte-addressed memory: the least significant
byte at the lowest address (R43). No rule depends on it. -/
def byteLane (w : Word) (k : Nat) : BitVec 8 := w.extractLsb' (8 * k) 8

end Sys2Proof.Machine
end

