-- ==== Sys2Proof/Machine/Ops.lean ====
section
/-! DEFINITION. The named operations every agent's step is built from: the guard of R28 and R172, setting a mark
(R8, R151), appending an event (R32), the read result (R7), the free values (R31) and the sync check (R70). The block
takes no exception and returns from none (R156, R157): what stands in for taking one is setting a mark. -/

namespace Sys2Proof.Machine

/-- What a step answers. -/
abbrev Result := Host.Outcome State Fault Refusal

/-- No agent has a step without the premise `clk_ready` (R172) or from a marked state (R28); otherwise `k` is the
step. Log 1, log 5. -/
def whileLive (s : State) (k : Result) : Result :=
  if s.clkReady then
    match s.fault, s.refused with
    | some c, _ => .fault (.marked c)
    | none, some c => .refused (.marked c)
    | none, none => k
  else .refused .clkNotReady

/-- `emit E`: append an event to the history (R7, R32). -/
def State.emit (e : Event) (s : State) : State := { s with hist := s.hist ++ [e] }

/-- `raise Fault(code)`: the mark is set, all else is as before the step (R8, R151); a first code stays in place
(R157). -/
def State.raise (c : FaultCode) (s : State) : State := { s with fault := s.fault.or (some c) }

/-- `refuse(code)`: the mark is set, all else is as before the step (R8, R151); a first code stays in place (R157). -/
def State.refuse (c : RefusedCode) (s : State) : State := { s with refused := s.refused.or (some c) }

/-- The result of a read transaction, recorded after those before it (R7, R11, R60). -/
def State.answer (w : Word) (s : State) : State := { s with reads := s.reads ++ [w] }

/-- One engine input has been drawn (R31). Log 3. -/
def State.drawn (s : State) : State := { s with draws := s.draws + 1 }

/-- One turn has been left to chance (R10, R100). Log 2. -/
def State.picked (s : State) : State := { s with picks := s.picks + 1 }

/-- `sync_check()` before a control write (R70): a pending synchronisation makes the write `Fault(F_SYNC)`. -/
def syncCheck (s : State) (k : Result) : Result :=
  if s.syncOp = .none then k else .next (s.raise .fSync)

/-- A read forwarded to the granted engine, if any (R85 to R87). -/
def forwardRead (offset : BitVec 5) (s : State) : State :=
  if s.grant = .none then s else s.emit (.engRead s.grant offset)

/-- A write forwarded to the granted engine, if any (R88 to R91). -/
def forwardWrite (offset : BitVec 5) (d : Word) (s : State) : State :=
  if s.grant = .none then s else s.emit (.engWrite s.grant offset d)

/-- The shape of the three forwarded reads (R85 to R87): `rdata` is a free value, the read is forwarded. -/
def engineRead (offset : BitVec 5) (s : State) : Result :=
  whileLive s (.next (forwardRead offset ((s.answer (Config.engRdata s.handle s.draws)).drawn)))

/-- The shape of the four forwarded writes (R88 to R91): no sync check, no state of the block changes. -/
def engineWrite (offset : BitVec 5) (d : Word) (s : State) : Result :=
  whileLive s (.next (forwardWrite offset d s))

/-- The word is put at the head of the schedule, so that the next turn is the host's and issues it (R9, R10). Log 6. -/
def State.offer (t : TxnWord) (s : State) : State := { s with schedule := .host t :: s.schedule }

end Sys2Proof.Machine
end

