-- ==== Sys2Proof/Machine/CtrlWrites.lean ====
section
/-! DEFINITION. The control-register writes `WR_CTRLA`, `WR_CTRLB`, `WR_BAUD`, `WR_ADDR` (R70 to R76). -/

namespace Sys2Proof.Machine

/-- The software-reset part of a CTRLA write: every other bit is discarded (R71). -/
def startReset (s : State) : State :=
  { s with ctrla := { s.ctrla with swrst := true }, syncOp := .reset }

/-- `mode_new` of R71: MODE is writable only while disabled and unlocked (EP, ML of R22). -/
def modeAfter (d : Word) (s : State) : BitVec 3 :=
  if s.ctrla.enable = false ∧ s.modeLocked = false then wMode d else s.ctrla.mode

/-- The configure part of a CTRLA write on a disabled block (R71). -/
def configureA (d : Word) (s : State) : State :=
  { s with ctrla := { s.ctrla with
      mode := modeAfter d s, sampr := wSampr d, pads := wPads d, form := wForm d,
      cpha := wCpha d, cpol := wCpol d, dord := wDord d } }

/-- The enable part of a CTRLA write (R71). -/
def startEnable (s : State) : State :=
  { s with ctrla := { s.ctrla with enable := true }, modeLocked := true, syncOp := .enable }

/-- The disable part of a CTRLA write (R71). -/
def startDisable (s : State) : State :=
  { s with ctrla := { s.ctrla with enable := false }, syncOp := .disable }

/-- An accepted CTRLA write after the sync check, in the order of R71 and R155: reset, refusal of an enable with no
personality, configuration, then enable or disable; the gating ENABLE is the one before the write (D8). -/
def writeCtrla (d : Word) (s : State) : State :=
  if wSwrst d then startReset s
  else if s.ctrla.enable then
    if wEnable d then s else startDisable s
  else if wEnable d then
    if pers (modeAfter d s) = .none then s.refuse .enableNone
    else startEnable (configureA d s)
  else configureA d s

/-- `WR_CTRLA d` (R71). -/
def execWrCtrla (d : Word) (s : State) : Result :=
  whileLive s (syncCheck s (.next (writeCtrla d s)))

/-- The configure part of a CTRLB write: CHSIZE, SBMODE, PMODE only while disabled, ACKACT always (R72). -/
def configureB (d : Word) (s : State) : State :=
  if s.ctrla.enable then { s with ctrlb := { s.ctrlb with ackact := wAckact d } }
  else { s with ctrlb := { chsize := wChsize d, sbmode := wSbmode d, pmode := wPmode d, ackact := wAckact d } }

/-- A non-zero command is latched for the granted I2C role and starts a synchronisation; with no I2C engine granted
its bits are dropped (R72, R107). -/
def latchCommand (code : BitVec 2) (s : State) : State :=
  match roleOf s.grant with
  | some role => if code = 0#2 then s else { s with cmdPending := some (role, code), syncOp := .cmd }
  | none => s

/-- `WR_CTRLB d` (R72). -/
def execWrCtrlb (d : Word) (s : State) : Result :=
  whileLive s (syncCheck s (.next (latchCommand (wCmd d) (configureB d s))))

/-- `WR_BAUD d` (R73): ignored while enabled. -/
def execWrBaud (d : Word) (s : State) : Result :=
  whileLive s (syncCheck s (.next (if s.ctrla.enable then s else { s with baud := wBaud d })))

/-- `WR_ADDR d` (R74): ignored while enabled. -/
def execWrAddr (d : Word) (s : State) : Result :=
  whileLive s (syncCheck s
    (.next (if s.ctrla.enable then s else { s with addr := { gencen := wGencen d, addr := wAddr d } })))

end Sys2Proof.Machine
end

