-- ==== Sys2Proof/Machine/EngineWindow.lean ====
section
/-! DEFINITION. The engine window: forwarded reads (R85 to R87) and forwarded writes (R88 to R91). What the engine does
with an access is out of scope (R4); the block records the event. -/

namespace Sys2Proof.Machine

/-- `RD_ENG0` (R85). -/
def execRdEng0 (s : State) : Result := engineRead 0x14#5 s

/-- `RD_ENG1` (R86). -/
def execRdEng1 (s : State) : Result := engineRead 0x18#5 s

/-- `RD_ENG2` (R87). -/
def execRdEng2 (s : State) : Result := engineRead 0x1C#5 s

/-- `WR_STATUS d` (R88): bits 15 and 31:16 are dropped. -/
def execWrStatus (d : Word) (s : State) : Result := engineWrite 0x10#5 (d &&& 0x00007FFF#32) s

/-- `WR_ENG0 d` (R89). -/
def execWrEng0 (d : Word) (s : State) : Result := engineWrite 0x14#5 d s

/-- `WR_ENG1 d` (R90). -/
def execWrEng1 (d : Word) (s : State) : Result := engineWrite 0x18#5 d s

/-- `WR_ENG2 d` (R91). -/
def execWrEng2 (d : Word) (s : State) : Result := engineWrite 0x1C#5 d s

end Sys2Proof.Machine
end

