-- ==== Sys2Proof/Machine/Reads.lean ====
section
/-! DEFINITION. Reads of the block's own registers (R80 to R84): they never test `sync_op`, never fault, never hold and
change no state of the block. -/

namespace Sys2Proof.Machine

/-- `RD_CTRLA` (R80). -/
def execRdCtrla (s : State) : Result := whileLive s (.next (s.answer (ctrlaWord s.ctrla)))

/-- `RD_CTRLB` (R81): CMD reads 0. -/
def execRdCtrlb (s : State) : Result := whileLive s (.next (s.answer (ctrlbWord s.ctrlb)))

/-- `RD_BAUD` (R82). -/
def execRdBaud (s : State) : Result := whileLive s (.next (s.answer (baudWord s.baud)))

/-- `RD_ADDR` (R83). -/
def execRdAddr (s : State) : Result := whileLive s (.next (s.answer (addrWord s.addr)))

/-- `RD_STATUS` (R84): bit 15 is SYNCBUSY, bits 14:0 are a free value; no event is recorded. -/
def execRdStatus (s : State) : Result :=
  whileLive s (.next ((s.answer (statusWord s.syncBusy (Config.engStatus s.handle s.draws))).drawn))

end Sys2Proof.Machine
end

