-- ==== Sys2Proof/Machine/Dispatch.lean ====
section
/-! DEFINITION. One arm per transaction of R62. -/

namespace Sys2Proof.Machine

def exec (i : Instr) (s : State) : Host.Outcome State Fault Refusal :=
  match i with
  | .rdCtrla => Sys2Proof.Machine.execRdCtrla s
  | .rdCtrlb => Sys2Proof.Machine.execRdCtrlb s
  | .rdBaud => Sys2Proof.Machine.execRdBaud s
  | .rdAddr => Sys2Proof.Machine.execRdAddr s
  | .rdStatus => Sys2Proof.Machine.execRdStatus s
  | .rdEng0 => Sys2Proof.Machine.execRdEng0 s
  | .rdEng1 => Sys2Proof.Machine.execRdEng1 s
  | .rdEng2 => Sys2Proof.Machine.execRdEng2 s
  | .wrCtrla d => Sys2Proof.Machine.execWrCtrla d s
  | .wrCtrlb d => Sys2Proof.Machine.execWrCtrlb d s
  | .wrBaud d => Sys2Proof.Machine.execWrBaud d s
  | .wrAddr d => Sys2Proof.Machine.execWrAddr d s
  | .wrStatus d => Sys2Proof.Machine.execWrStatus d s
  | .wrEng0 d => Sys2Proof.Machine.execWrEng0 d s
  | .wrEng1 d => Sys2Proof.Machine.execWrEng1 d s
  | .wrEng2 d => Sys2Proof.Machine.execWrEng2 d s

end Sys2Proof.Machine
end

