-- ==== Sys2Proof/Machine/Bus.lean ====
section
/-! DEFINITION. The host's bus port: a transaction word is decoded and performed (R60, R63), and the two bus primitives
of R49. -/

namespace Sys2Proof.Machine

/-- A step of HOST: the word is decoded; one that spells no transaction is `Refused(X_BAD_TXN)`, the state otherwise
unchanged (R63, R155). -/
def hostStep (t : TxnWord) (s : State) : Result :=
  match decode t with
  | .ok i => exec i s
  | .error _ => whileLive s (.next (s.refuse .badTxn))

/-- `MemRead(offset, 4)` (R7, R49): the read transaction of that offset. -/
def memRead (offset : Nat) (s : State) : Result :=
  match readAt offset with
  | some i => exec i s
  | none => whileLive s (.next (s.refuse .badTxn))

/-- `MemWrite(offset, 4, v)` (R7, R49): the write transaction of that offset. -/
def memWrite (offset : Nat) (v : Word) (s : State) : Result :=
  match writeAt offset v with
  | some i => exec i s
  | none => whileLive s (.next (s.refuse .badTxn))

end Sys2Proof.Machine
end

