-- ==== Sys2Proof/Machine/Sequencer.lean ====
section
/-! DEFINITION. The per-personality sequencer (R120 to R142): the expansion of every request, and one micro-step of the
SEQ agent. -/

namespace Sys2Proof.Machine

/-- The scratch locals by name (R20). -/
inductive Local where
  | a | b | s
  deriving DecidableEq, Repr

/-- One line of an expansion (R120). -/
inductive Line where
  | txn (i : Instr)                             -- a bus transaction
  | read (x : Local) (i : Instr)                -- x <- RD_<reg>
  | skipIf (c : Bool) (target : Nat)            -- if c skip to target
  | repollIf (c : Bool)                         -- the last line of a wait: if c skip to 0
  | call (r : Request)                          -- a wait or a nested request, its lines in place
  | setSpiInited (v : Bool)                     -- spi_inited <- v
  | refuseIf (c : Bool) (code : RefusedCode)    -- if c then refuse(code)
  | result (v : Bool)                           -- result <- v
  deriving DecidableEq, Repr

/-- The CTRLA word of `SEQ_INIT_UART` line 1 (R126). -/
def initUartCtrla (sampr : BitVec 3) (pads : BitVec 6) (form : BitVec 4) (dord : Bool) : Word :=
  modeUart ||| fieldAt sampr 13 ||| fieldAt pads 16 ||| fieldAt form 24 ||| flagAt dord 30

/-- The CTRLA word of `SEQ_INIT_SPI` line 1 (R127). -/
def initSpiCtrla (st : SpiSettings) : Word :=
  modeSpi ||| fieldAt st.pads 16 ||| flagAt st.cpha 28 ||| flagAt st.cpol 29 ||| flagAt st.dord 30

/-- Whether a read of CTRLA shows an I2C mode code, 4 or 5 (R139). -/
def showsI2c (a : Word) : Bool := wMode a == 4#3 || wMode a == 5#3

/-- The expansion of a request, its values computed from the locals and the latch as they stand (R121 to R142). -/
def expansion (l : Locals) (spiInited : Bool) : Request → List Line
  | .waitSync =>                                                        -- R121
    [.read .s .rdStatus,
     .repollIf (l.s.getLsbD 15)]
  | .waitReset =>                                                       -- R122
    [.read .a .rdCtrla,
     .read .s .rdStatus,
     .repollIf (l.a.getLsbD 0 || l.s.getLsbD 15)]
  | .reset =>                                                           -- R123
    [.read .a .rdCtrla,
     .skipIf (!l.a.getLsbD 1) 4,
     .txn (.wrCtrla (l.a &&& 0xFFFFFFFC#32)),
     .call .waitSync,
     .txn (.wrCtrla 0x00000001#32),
     .call .waitReset]
  | .enable =>                                                          -- R124
    [.read .a .rdCtrla,
     .txn (.wrCtrla ((l.a ||| 0x00000002#32) &&& 0xFFFFFFFE#32)),
     .call .waitSync]
  | .disable =>                                                         -- R125
    [.read .a .rdCtrla,
     .txn (.wrCtrla (l.a &&& 0xFFFFFFFC#32)),
     .call .waitSync]
  | .initUart sampr pads form dord chsize sbmode pmode baudval =>       -- R126
    [.call .reset,
     .txn (.wrCtrla (initUartCtrla sampr pads form dord)),
     .txn (.wrCtrlb (fieldAt chsize 0 ||| flagAt sbmode 6 ||| flagAt pmode 13)),
     .txn (.wrBaud (fieldAt baudval 0))]
  | .initSpi st =>                                                      -- R127
    [.call .reset,
     .txn (.wrCtrla (initSpiCtrla st)),
     .txn (.wrCtrlb (fieldAt st.chsize 0)),
     .txn (.wrBaud (fieldAt st.baudval 0))]
  | .initI2cm baudval =>                                                -- R128
    [.call .reset,
     .txn (.wrCtrla 0x00000014#32),
     .txn (.wrBaud (fieldAt baudval 0))]
  | .initI2cs addr gencen =>                                            -- R129
    [.call .reset,
     .txn (.wrCtrla 0x00000010#32),
     .txn (.wrAddr (fieldAt addr 1 ||| flagAt gencen 0))]
  | .setDordSpi v =>                                                    -- R131
    [.call .disable,
     .read .a .rdCtrla,
     .txn (.wrCtrla ((l.a &&& 0xBFFFFFFC#32) ||| flagAt v 30)),
     .call .enable]
  | .setClkmodeSpi cpol cpha =>                                         -- R132
    [.call .disable,
     .read .a .rdCtrla,
     .txn (.wrCtrla ((l.a &&& 0xCFFFFFFC#32) ||| flagAt cpha 28 ||| flagAt cpol 29)),
     .call .enable]
  | .setBaudSpi divisor =>                                              -- R133
    [.skipIf (divisor == 0) 4,
     .call .disable,
     .txn (.wrBaud (fieldAt (Config.spiBaudFn divisor) 0)),
     .call .enable]
  | .configSpi st =>                                                    -- R134
    [.call (.initSpi st),
     .call .enable]
  | .beginSpi =>                                                        -- R135
    [.skipIf spiInited 3,
     .call (.configSpi Config.spiDefaults),
     .setSpiInited true]
  | .endSpi =>                                                          -- R136
    [.skipIf (!spiInited) 3,
     .call .reset,
     .setSpiInited false]
  | .isMaster =>                                                        -- R139
    [.read .a .rdCtrla,
     .result (wMode l.a == 5#3)]
  | .roleCheck =>                                                       -- R139
    [.read .a .rdCtrla,
     .refuseIf (!showsI2c l.a) .role]
  | .ack =>                                                             -- R140
    [.call .roleCheck,
     .read .b .rdCtrlb,
     .txn (.wrCtrlb (l.b &&& 0xFFF8FFFF#32))]
  | .nack =>                                                            -- R141
    [.call .roleCheck,
     .read .b .rdCtrlb,
     .txn (.wrCtrlb ((l.b &&& 0xFFF8FFFF#32) ||| 0x00040000#32))]
  | .command code =>                                                    -- R142
    [.call .roleCheck,
     .read .b .rdCtrlb,
     .txn (.wrCtrlb ((l.b &&& 0xFFFCFFFF#32) ||| fieldAt code 16)),
     .call .waitSync]
  | .beginUart sampr pads form dord chsize sbmode pmode baudval =>      -- R137
    [.call (.initUart sampr pads form dord chsize sbmode pmode baudval),
     .call .enable]
  | .beginI2cm baudval =>                                               -- R137
    [.call (.initI2cm baudval),
     .call .enable]
  | .beginI2cs addr gencen =>                                           -- R137
    [.call (.initI2cs addr gencen),
     .call .enable]
  | .endFrontEnd =>                                                     -- R137
    [.call .reset]

/-- How many lines a request has; the number does not depend on the locals or the latch. -/
def lineCount (r : Request) : Nat := (expansion {} false r).length

/-- A local is bound to the result of a read (R120). -/
def Locals.bind (x : Local) (w : Word) (l : Locals) : Locals :=
  match x with
  | .a => { l with a := w }
  | .b => { l with b := w }
  | .s => { l with s := w }

/-- `upc <- upc + 1` (R21, R120). -/
def Frame.next (f : Frame) : Frame := { f with upc := f.upc + 1 }

/-- The expansions still to run: one that has passed its last line ends (R21, R120). A nested one lets the frame that
called it go on with its next line; the end of one that was handed over ends that request with `OK` and its value. The
Boolean says that the frame above has just ended and was called by the first frame given. Log 8. -/
def unwind (returned : Bool) : List Frame → Option RequestOutcome × List Frame
  | [] => (none, [])
  | f :: rest =>
    let g := if returned then f.next else f
    if g.upc < lineCount g.req then (none, g :: rest)
    else if g.nested then unwind true rest
    else (some (.ok g.value), rest)

/-- The frames left when the request whose expansion runs now ends at once, with every expansion it called (R120,
R138). -/
def dropRequest : List Frame → List Frame
  | [] => []
  | f :: rest => if f.nested then dropRequest rest else rest

/-- The frames become `fs`, less those that have passed their last line; a request that ends so ends `OK` (R120). -/
def State.goOn (fs : List Frame) (s : State) : State :=
  match unwind false fs with
  | (some o, fs') => { s with frames := fs', outcome := some o }
  | (none, fs') => { s with frames := fs' }

/-- The request in progress ends with outcome `o` (R120, R138). -/
def State.endRequest (o : RequestOutcome) (s : State) : State :=
  { s with frames := dropRequest s.frames, outcome := some o }

/-- A request that reached a fault or a refusal ends there with that outcome (R120); otherwise the frames go on. -/
def State.afterLine (fs : List Frame) (s : State) : State :=
  match s.fault, s.refused with
  | some c, _ => s.endRequest (.fault c)
  | none, some c => s.endRequest (.refused c)
  | none, none => s.goOn fs

/-- An unsuccessful poll (R121, R122, R138): with `polls` of them made so far, the wait times out at a finite limit
and otherwise goes round once more. -/
def pollAgain (limit : Option Nat) (f : Frame) (rest : List Frame) (s : State) : State :=
  match limit with
  | some n => if n ≤ f.polls + 1 then s.endRequest .timeout
              else { s with frames := { f with upc := 0, polls := f.polls + 1 } :: rest }
  | none => { s with frames := { f with upc := 0, polls := f.polls + 1 } :: rest }

/-- One line of the running expansion `f`, above the frames `rest` (R120). -/
def runLine (ln : Line) (f : Frame) (rest : List Frame) (s : State) : Result :=
  match ln with
  | .txn i =>
    match exec i s with
    | .next t => .next (t.afterLine (f.next :: rest))
    | .fault c => .fault c
    | .refused c => .refused c
  | .read x i =>
    match exec i s with
    | .next t => .next (t.afterLine ({ f.next with locals := f.locals.bind x t.rdata } :: rest))
    | .fault c => .fault c
    | .refused c => .refused c
  | .skipIf c target => .next (s.goOn ({ f with upc := if c then target else f.upc + 1 } :: rest))
  | .repollIf c => .next (if c then pollAgain Config.waitLimit f rest s else s.goOn (f.next :: rest))
  | .call r => .next { s with frames := { req := r, nested := true } :: f :: rest }
  | .setSpiInited v => .next ({ s with spiInited := v }.goOn (f.next :: rest))
  | .refuseIf c code => .next (if c then (s.refuse code).endRequest (.refused code) else s.goOn (f.next :: rest))
  | .result v => .next (s.goOn ({ f.next with value := some v } :: rest))

/-- A turn of the SEQ agent: one line of the running expansion; with no request in progress it has no step (R9,
R120). Log 2. -/
def seqStep (s : State) : Result :=
  whileLive s
    (match s.frames with
     | [] => .next s
     | f :: rest =>
       match (expansion f.locals s.spiInited f.req)[f.upc]? with
       | some ln => runLine ln f rest s
       | none => .next (s.goOn (f :: rest)))

/-- A request is handed to the sequencer: its expansion starts at line 0 (R21, R120). One handed over while another is
in progress is a handler's and runs first (R51, R180). Log 8, log 9. -/
def requestStep (r : Request) (s : State) : Result :=
  whileLive s (.next { s with frames := { req := r } :: s.frames })

end Sys2Proof.Machine
end

