-- ==== Sys2Proof/Machine/Sync.lean ====
section
/-! DEFINITION. The SYNC agent: `SYNC_COMPLETE` in its four cases (R100 to R104). -/

namespace Sys2Proof.Machine

/-- `SYNC_COMPLETE[RESET]` (R101): the grant is released, the engines are reset, the registers are cleared and MODE is
unlocked, in one step; the marks, `hist` and `spi_inited` are kept (R171). -/
def completeReset (s : State) : State :=
  let s := if s.enEff then s.emit (.release (pers s.ctrla.mode)) else s
  let s := s.emit .engReset
  { s with ctrla := {}, ctrlb := {}, baud := 0#16, addr := {},
           enEff := false, modeLocked := false, cmdPending := none, syncOp := .none }

/-- `SYNC_COMPLETE[ENABLE]` (R102). -/
def completeEnable (s : State) : State :=
  { s with enEff := true, syncOp := .none }.emit (.grant (pers s.ctrla.mode))

/-- `SYNC_COMPLETE[DISABLE]` (R103). -/
def completeDisable (s : State) : State :=
  { s.emit (.release (pers s.ctrla.mode)) with enEff := false, syncOp := .none }

/-- `SYNC_COMPLETE[CMD]` (R104). With nothing latched, which R30 I5 excludes, no command is delivered (log 15). -/
def completeCmd (s : State) : State :=
  let s := match s.cmdPending with
    | some (role, code) => s.emit (.cmd role code)
    | none => s
  { s with cmdPending := none, syncOp := .none }

/-- The step `SYNC_COMPLETE` does by the value of `sync_op`; with NONE the agent has no step (R100). -/
def syncComplete (s : State) : State :=
  match s.syncOp with
  | .none => s
  | .reset => completeReset s
  | .enable => completeEnable s
  | .disable => completeDisable s
  | .cmd => completeCmd s

/-- A turn of the SYNC agent (R9, R100). Log 2. -/
def syncStep (s : State) : Result := whileLive s (.next (syncComplete s))

end Sys2Proof.Machine
end

