-- ==== Sys2Proof/Machine/Schedule.lean ====
section
/-! DEFINITION. Which agent steps next (R9, R10): the turns of State.schedule in order, then whichever agent of the block
and its sequencer still has a step. -/

namespace Sys2Proof.Machine

/-- One turn of the schedule. Log 2. -/
def runTurn (u : Turn) (s : State) : Result :=
  match u with
  | .host t => hostStep t s
  | .sync => syncStep s
  | .request r => requestStep r s
  | .seq => seqStep s

/-- No turn is given: SYNC steps if it alone has a step, SEQ if it alone has one, a free value decides between both;
with neither, nothing moves until the host issues a transaction (R9, R10, R100). Log 2, log 7. -/
def freeTurn (s : State) : Result :=
  match s.syncBusy, s.frames with
  | true, [] => syncStep s
  | true, _ :: _ => if Config.syncFirst s.handle s.picks then syncStep s.picked else seqStep s.picked
  | false, _ :: _ => seqStep s
  | false, [] => whileLive s (.next s)

/-- One step of one agent of the block (R9). -/
def takeTurn (s : State) : Result :=
  match s.schedule with
  | u :: rest => runTurn u { s with schedule := rest }
  | [] => freeTurn s

end Sys2Proof.Machine
end

