-- ==== Sys2Proof/Machine/Step.lean ====
section
/-! DEFINITION. One step of the block, and how a transaction word comes to be its next step. -/

namespace Sys2Proof.Machine

/-- One step: one turn of one agent (R9). -/
def step (s : State) : Host.Outcome State Fault Refusal := takeTurn s

/-- The transaction word whose bits are `w` is the next turn's: the block fetches nothing (R41), so a program is the
host's, and its words arrive through the schedule. Log 6. -/
def State.withFetchWord (s : State) (nbits w : Nat) : State := s.offer (BitVec.ofNat 40 (w % 2 ^ nbits))

end Sys2Proof.Machine
end

