-- ==== Sys2Proof/Machine/Chip.lean ====
section
/-! DEFINITION. The chip: N_INSTANCES independent copies of the block (R5, R35). Log 16. -/

namespace Sys2Proof.Machine

/-- The instances of the block on one chip, by Peripheral Handle (R35). -/
structure Chip where
  instances : List State
  deriving DecidableEq, Repr

/-- The chip after hardware reset: every instance at its own reset state, under its own handle, so that its draws
are unrelated to those of another: the spec relates them nowhere (R31, R35, R170). Logs 3 and 16. -/
def Chip.reset : Chip :=
  { instances := (List.range Config.nInstances).map fun k => { State.reset with handle := k } }

/-- A step of instance `k`; no other instance is read or written (R35). There is none where there is no instance. -/
def Chip.stepAt (k : Nat) (c : Chip) : Option (Host.Outcome Chip Fault Refusal) :=
  match c.instances[k]? with
  | none => none
  | some s =>
    match step s with
    | .next t => some (.next { instances := c.instances.set k t })
    | .fault r => some (.fault r)
    | .refused r => some (.refused r)

end Sys2Proof.Machine
end

