-- ==== Sys2Proof/Safety.lean ====
section
/-! DEFINITION. What claims are stated in: the invariants of R30, the order of the event history (R92, R106), the
observation (R11), the end of a run (R183) and the fairness premise (R100). -/

namespace Sys2Proof.Machine

/-- A state in which a step of an agent has a meaning: no mark is set (R28) and `clk_ready` holds (R172). -/
structure State.Live (s : State) : Prop where
  clk : s.clkReady = true
  noFault : s.fault = none
  noRefusal : s.refused = none

/-- The four control-register writes, which the sync rule covers (R12, R70). -/
def isControlWrite : Instr → Bool
  | .wrCtrla _ | .wrCtrlb _ | .wrBaud _ | .wrAddr _ => true
  | .rdCtrla | .rdCtrlb | .rdBaud | .rdAddr | .rdStatus | .rdEng0 | .rdEng1 | .rdEng2 => false
  | .wrStatus _ | .wrEng0 _ | .wrEng1 _ | .wrEng2 _ => false

/-- What an outside observer sees: the result of every read, the history and the marks (R11). Log 25. -/
structure Observation where
  reads : List Word
  hist : List Event
  fault : Option FaultCode
  refused : Option RefusedCode
  deriving DecidableEq, Repr

/-- The observation of a state (R11). -/
def State.observe (s : State) : Observation :=
  { reads := s.reads, hist := s.hist, fault := s.fault, refused := s.refused }

/-- Whether a turn is the host program's: a transaction or a request it hands over (R9). A turn left for SYNC or SEQ is
none. -/
def Turn.isProgram : Turn → Bool
  | .host _ => true
  | .request _ => true
  | .sync => false
  | .seq => false

/-- A run is over: nothing more of the host program is to come, no request is in progress, no synchronisation is
pending and no mark is set (R11, R183). -/
def State.over (s : State) : Bool :=
  s.schedule.all (fun u => !u.isProgram) && s.frames.isEmpty && s.syncOp == .none && !s.marked

/-- The invariants I1 to I9 of R30; I10 holds by the way registers are stored (log 13). `role` and `lastMode` are
not R30's: they say of a pending command and a pending enable what R72 and R71 left when they were written. -/
structure State.Inv (s : State) : Prop where
  i1 : s.ctrla.swrst = true ↔ s.syncOp = .reset
  i2 : s.syncOp = .none → s.enEff = s.ctrla.enable
  i3 : s.ctrla.enable = true → s.modeLocked = true ∧ pers s.ctrla.mode ≠ .none
  i4 : s.enEff = true → pers s.ctrla.mode ≠ .none
  i5 : s.syncOp = .cmd → s.enEff = true ∧ s.ctrla.enable = true ∧ s.cmdPending ≠ none ∧
    (pers s.ctrla.mode = .i2cm ∨ pers s.ctrla.mode = .i2cs)
  i6 : s.syncOp ≠ .cmd → s.cmdPending = none
  i7 : s.syncOp = .enable → s.ctrla.enable = true ∧ s.enEff = false
  i8 : s.syncOp = .disable → s.ctrla.enable = false ∧ s.enEff = true
  i9 : [s.enUart, s.enSpi, s.enI2cm, s.enI2cs].count true ≤ 1
  locked : s.enEff = true → s.modeLocked = true
  role : ∀ r c, s.cmdPending = some (r, c) → roleOf (pers s.ctrla.mode) = some r ∧ c ≠ 0#2

/-- What reading a history from its oldest event has found: who owns the block, whom the latest `Grant` since the
latest `EngReset` named, and whether every event so far was in order. -/
structure HistScan where
  owner : Personality := .none
  last : Personality := .none
  ok : Bool := true
  deriving DecidableEq, Repr

/-- One event more. In order are: a grant of a free block, to the personality of the grant before unless an engine
reset lies between (R106); a release by the owner; an engine reset of a free block (R101); a command in the owner's
role (R107); an access to the owner (R92). -/
def HistScan.add (c : HistScan) : Event → HistScan
  | .grant p =>
    let inOrder := c.owner == .none && p != .none && (c.last == .none || c.last == p)
    { owner := p, last := p, ok := c.ok && inOrder }
  | .release p => { c with owner := .none, ok := c.ok && p != .none && c.owner == p }
  | .engReset => { c with last := .none, ok := c.ok && c.owner == .none }
  | .cmd r _ => { c with ok := c.ok && roleOf c.owner == some r }
  | .engWrite p _ _ => { c with ok := c.ok && p != .none && c.owner == p }
  | .engRead p _ => { c with ok := c.ok && p != .none && c.owner == p }

/-- A history read from its oldest event. -/
def scanHist (h : List Event) : HistScan := h.foldl HistScan.add {}

/-- The history is in order, its owner is the grant, and while a personality has been granted since the latest engine
reset MODE is locked at it (R92, R105, R106). -/
structure State.HistInv (s : State) : Prop where
  ok : (scanHist s.hist).ok = true
  owner : (scanHist s.hist).owner = s.grant
  last : (scanHist s.hist).last ≠ .none →
    s.modeLocked = true ∧ (scanHist s.hist).last = pers s.ctrla.mode

/-- "The personality seen by a `Grant` can differ from that of an earlier one only if an `EngReset` lies between them"
(R106). -/
def SwitchNeedsReset (h : List Event) : Prop :=
  ∀ before between after p q, h = before ++ .grant p :: (between ++ .grant q :: after) → p ≠ q →
    .engReset ∈ between

/-- "Between a `Release(p)` and the next `Grant(q)` no `EngRead` or `EngWrite` event appears" (R92). -/
def QuietWhileReleased (h : List Event) : Prop :=
  ∀ before between after p, h = before ++ .release p :: (between ++ after) → (∀ q, .grant q ∉ between) →
    (∀ q o, .engRead q o ∉ between) ∧ (∀ q o d, .engWrite q o d ∉ between)

/-- Every `upc` of an expansion in progress is a line of it, the frames under a nested one included (R21, R120). -/
def State.SeqInv (s : State) : Prop := ∀ f ∈ s.frames, f.upc < lineCount f.req

/-- A state some run of some instance from hardware reset reaches, whatever turns were given to it there (R35, R170,
log 6). -/
inductive Reachable : State → Prop where
  | start (handle : Nat) (turns : List Turn) : Reachable { State.reset with handle := handle, schedule := turns }
  | step (s t : State) : Reachable s → Machine.step s = .next t → Reachable t

/-- The fairness premise of R100 for the turns that nobody schedules, for one instance: whatever number of choices was
made, a later one is SYNC's. The choices of an instance are numbered one after the other (`State.picks`), so SYNC is not
deferred for ever. No rule of the model uses it; a claim that a wait ends takes it as a hypothesis. Log 18. -/
def FairSync (handle : Nat) : Prop := ∀ n, ∃ m, n ≤ m ∧ Config.syncFirst handle m = true

/-- The turns after a request that enables or disables the block, SYNC stepping when its wait begins: the read and the
write, the call of the wait, SYNC, one poll (R121, R124, R125). -/
def waitedWrite : List Turn := [.seq, .seq, .seq, .sync, .seq, .seq]

/-- The turns of the expansion `SEQ_RESET`, SYNC stepping when each wait begins (R123): with the block enabled the
disable with its wait comes first. -/
def resetTurns (enabled : Bool) : List Turn :=
  (if enabled then [.seq, .seq, .seq, .seq, .sync, .seq, .seq] else [.seq, .seq]) ++
    [.seq, .seq, .sync, .seq, .seq, .seq]

end Sys2Proof.Machine
end

