-- ==== Sys2Proof/Certificates/Slice0/Obligations.lean ====
section
/-! DEFINITION. The statements for the provers, from the numbered rules of spec/. Every number in them (offsets, bit
positions, codes, reset values) is the spec's own decision (92_eei_decisions.md), as its rules mark it. -/

open Sys2Proof Sys2Proof.Machine

/-! Encoding -/

/-- Words written out from the encodings of R60 and R62 (vectors E1, E2, E8, E9, E11, E12, E13, E14, E16). -/
def Obligations.DecodeSampleWords : Prop :=
  decode 0x0000000000#40 = .ok .rdCtrla ∧ decode 0x00DEADBEEF#40 = .ok .rdCtrla ∧
  decode 0x1000000000#40 = .ok .rdStatus ∧ decode 0x1C00000000#40 = .ok .rdEng2 ∧
  decode 0x801003000E#40 = .ok (.wrCtrla 0x1003000E#32) ∧ decode 0x8400070000#40 = .ok (.wrCtrlb 0x00070000#32) ∧
  decode 0x8C00000091#40 = .ok (.wrAddr 0x00000091#32) ∧ decode 0x9000008006#40 = .ok (.wrStatus 0x00008006#32) ∧
  decode 0x9CFFFFFFFF#40 = .ok (.wrEng2 0xFFFFFFFF#32) ∧
  decode 0x0100000000#40 = .error .unalignedOffset ∧ decode 0x2000000000#40 = .error .reservedHeader

/-- R62: the header byte alone selects the transaction, and a write carries `T[31:0]`. -/
def Obligations.HeaderSelectsTransaction : Prop :=
  ∀ t : TxnWord,
    (t.extractLsb' 32 8 = 0x00#8 → decode t = .ok .rdCtrla) ∧
    (t.extractLsb' 32 8 = 0x04#8 → decode t = .ok .rdCtrlb) ∧
    (t.extractLsb' 32 8 = 0x08#8 → decode t = .ok .rdBaud) ∧
    (t.extractLsb' 32 8 = 0x0C#8 → decode t = .ok .rdAddr) ∧
    (t.extractLsb' 32 8 = 0x10#8 → decode t = .ok .rdStatus) ∧
    (t.extractLsb' 32 8 = 0x14#8 → decode t = .ok .rdEng0) ∧
    (t.extractLsb' 32 8 = 0x18#8 → decode t = .ok .rdEng1) ∧
    (t.extractLsb' 32 8 = 0x1C#8 → decode t = .ok .rdEng2) ∧
    (t.extractLsb' 32 8 = 0x80#8 → decode t = .ok (.wrCtrla (t.extractLsb' 0 32))) ∧
    (t.extractLsb' 32 8 = 0x84#8 → decode t = .ok (.wrCtrlb (t.extractLsb' 0 32))) ∧
    (t.extractLsb' 32 8 = 0x88#8 → decode t = .ok (.wrBaud (t.extractLsb' 0 32))) ∧
    (t.extractLsb' 32 8 = 0x8C#8 → decode t = .ok (.wrAddr (t.extractLsb' 0 32))) ∧
    (t.extractLsb' 32 8 = 0x90#8 → decode t = .ok (.wrStatus (t.extractLsb' 0 32))) ∧
    (t.extractLsb' 32 8 = 0x94#8 → decode t = .ok (.wrEng0 (t.extractLsb' 0 32))) ∧
    (t.extractLsb' 32 8 = 0x98#8 → decode t = .ok (.wrEng1 (t.extractLsb' 0 32))) ∧
    (t.extractLsb' 32 8 = 0x9C#8 → decode t = .ok (.wrEng2 (t.extractLsb' 0 32)))

/-- 30_encoding.md section 3: a word is rejected exactly when `T[38:37] ≠ 00` or `T[33:32] ≠ 00`, and the machine then
sets `refused = X_BAD_TXN` and changes nothing else. -/
def Obligations.InvalidWordIsRefused : Prop :=
  ∀ (t : TxnWord),
    ((∃ e, decode t = .error e) ↔ t.extractLsb' 37 2 ≠ 0#2 ∨ t.extractLsb' 32 2 ≠ 0#2) ∧
    ∀ s : State, s.Live → (t.extractLsb' 37 2 ≠ 0#2 ∨ t.extractLsb' 32 2 ≠ 0#2) →
      hostStep t s = .next { s with refused := some .badTxn }

/-- 30_encoding.md section 5: decoder and encoder agree, in both directions where a word has one meaning. -/
def Obligations.EncodeAndDecodeAgree : Prop :=
  (∀ i : Instr, i.wellFormed = true → decode (encode i) = .ok i) ∧
  (∀ (t : TxnWord) (i : Instr), decode t = .ok i → t.getLsbD 39 = true → encode i = t) ∧
  (∀ (t : TxnWord) (i : Instr), decode t = .ok i → t.getLsbD 39 = false → t.extractLsb' 0 32 = 0#32 → encode i = t)

/-! Control-register writes -/

/-- R70: a control write while a synchronisation is pending faults, changes nothing and leaves it pending; no other
transaction makes the check. -/
def Obligations.ControlWriteWhileSyncingFaults : Prop :=
  ∀ (i : Instr) (s : State), s.Live → s.syncOp ≠ .none →
    (isControlWrite i = true → exec i s = .next { s with fault := some .fSync }) ∧
    (isControlWrite i = false → ∃ t, exec i s = .next t ∧ t.fault = none ∧ t.refused = none ∧ t.syncOp = s.syncOp)

/-- R71, whole: sync check, reset, configuration, refusal, enable, disable. -/
def Obligations.WriteCtrlaFollowsRule : Prop :=
  ∀ (d : Word) (s : State) (mode : BitVec 3), s.Live →
    mode = (if s.ctrla.enable = false ∧ s.modeLocked = false then d.extractLsb' 2 3 else s.ctrla.mode) →
    (s.syncOp ≠ .none → exec (.wrCtrla d) s = .next { s with fault := some .fSync }) ∧
    (s.syncOp = .none → d.getLsbD 0 = true →
      exec (.wrCtrla d) s = .next { s with ctrla := { s.ctrla with swrst := true }, syncOp := .reset }) ∧
    (s.syncOp = .none → d.getLsbD 0 = false → s.ctrla.enable = true → d.getLsbD 1 = true →
      exec (.wrCtrla d) s = .next s) ∧
    (s.syncOp = .none → d.getLsbD 0 = false → s.ctrla.enable = true → d.getLsbD 1 = false →
      exec (.wrCtrla d) s = .next { s with ctrla := { s.ctrla with enable := false }, syncOp := .disable }) ∧
    (s.syncOp = .none → d.getLsbD 0 = false → s.ctrla.enable = false → d.getLsbD 1 = true → pers mode = .none →
      exec (.wrCtrla d) s = .next { s with refused := some .enableNone }) ∧
    (s.syncOp = .none → d.getLsbD 0 = false → s.ctrla.enable = false → d.getLsbD 1 = true → pers mode ≠ .none →
      exec (.wrCtrla d) s = .next { s with
        ctrla := { s.ctrla with enable := true, mode := mode, sampr := d.extractLsb' 13 3, pads := d.extractLsb' 16 6,
                                form := d.extractLsb' 24 4, cpha := d.getLsbD 28, cpol := d.getLsbD 29,
                                dord := d.getLsbD 30 }
        modeLocked := true
        syncOp := .enable }) ∧
    (s.syncOp = .none → d.getLsbD 0 = false → s.ctrla.enable = false → d.getLsbD 1 = false →
      exec (.wrCtrla d) s = .next { s with
        ctrla := { s.ctrla with mode := mode, sampr := d.extractLsb' 13 3, pads := d.extractLsb' 16 6,
                                form := d.extractLsb' 24 4, cpha := d.getLsbD 28, cpol := d.getLsbD 29,
                                dord := d.getLsbD 30 } })

/-- R72, whole: sync check, configuration while disabled, ACKACT always, a non-zero command latched for the granted
I2C role and dropped otherwise. -/
def Obligations.WriteCtrlbFollowsRule : Prop :=
  ∀ (d : Word) (s : State) (b : CtrlB), s.Live →
    b = (if s.ctrla.enable = true then { s.ctrlb with ackact := d.getLsbD 18 }
         else { chsize := d.extractLsb' 0 3, sbmode := d.getLsbD 6, pmode := d.getLsbD 13, ackact := d.getLsbD 18 }) →
    (s.syncOp ≠ .none → exec (.wrCtrlb d) s = .next { s with fault := some .fSync }) ∧
    (s.syncOp = .none → d.extractLsb' 16 2 ≠ 0#2 → s.grant = .i2cm →
      exec (.wrCtrlb d) s = .next { s with
        ctrlb := b, cmdPending := some (.master, d.extractLsb' 16 2), syncOp := .cmd }) ∧
    (s.syncOp = .none → d.extractLsb' 16 2 ≠ 0#2 → s.grant = .i2cs →
      exec (.wrCtrlb d) s = .next { s with
        ctrlb := b, cmdPending := some (.slave, d.extractLsb' 16 2), syncOp := .cmd }) ∧
    (s.syncOp = .none → d.extractLsb' 16 2 = 0#2 ∨ (s.grant ≠ .i2cm ∧ s.grant ≠ .i2cs) →
      exec (.wrCtrlb d) s = .next { s with ctrlb := b })

/-- R73, whole: sync check; BAUD takes `d[15:0]` while disabled and is unchanged while enabled. -/
def Obligations.WriteBaudFollowsRule : Prop :=
  ∀ (d : Word) (s : State), s.Live →
    (s.syncOp ≠ .none → exec (.wrBaud d) s = .next { s with fault := some .fSync }) ∧
    (s.syncOp = .none → s.ctrla.enable = false → exec (.wrBaud d) s = .next { s with baud := d.extractLsb' 0 16 }) ∧
    (s.syncOp = .none → s.ctrla.enable = true → exec (.wrBaud d) s = .next s)

/-- R74, whole: sync check; GENCEN and ADDR take `d[0]` and `d[7:1]` while disabled and are unchanged while enabled. -/
def Obligations.WriteAddrFollowsRule : Prop :=
  ∀ (d : Word) (s : State), s.Live →
    (s.syncOp ≠ .none → exec (.wrAddr d) s = .next { s with fault := some .fSync }) ∧
    (s.syncOp = .none → s.ctrla.enable = false →
      exec (.wrAddr d) s = .next { s with addr := { gencen := d.getLsbD 0, addr := d.extractLsb' 1 7 } }) ∧
    (s.syncOp = .none → s.ctrla.enable = true → exec (.wrAddr d) s = .next s)

/-- 40_ctrl_writes.md section 6, law L5: writing a register the value it reads changes nothing and starts nothing.
What is read is the `rdata` of the read transaction. -/
def Obligations.WritingTheReadValueChangesNothing : Prop :=
  ∀ s t : State, s.Live → s.Inv → s.syncOp = .none →
    (exec .rdCtrla s = .next t → exec (.wrCtrla t.rdata) s = .next s) ∧
    (exec .rdCtrlb s = .next t → exec (.wrCtrlb t.rdata) s = .next s) ∧
    (exec .rdBaud s = .next t → exec (.wrBaud t.rdata) s = .next s) ∧
    (exec .rdAddr s = .next t → exec (.wrAddr t.rdata) s = .next s)

/-- 40_ctrl_writes.md section 6, the table of which transaction starts which synchronisation, over all sixteen. -/
def Obligations.WhichWriteStartsWhichSync : Prop :=
  ∀ (i : Instr) (s t : State), s.syncOp = .none → exec i s = .next t →
    (t.syncOp = .reset ↔ ∃ d, i = .wrCtrla d ∧ d.getLsbD 0 = true) ∧
    (t.syncOp = .enable ↔ ∃ d, i = .wrCtrla d ∧ d.getLsbD 0 = false ∧ d.getLsbD 1 = true ∧
      s.ctrla.enable = false ∧ pers t.ctrla.mode ≠ .none ∧ t.refused = none) ∧
    (t.syncOp = .disable ↔ ∃ d, i = .wrCtrla d ∧ d.getLsbD 0 = false ∧ d.getLsbD 1 = false ∧ s.ctrla.enable = true) ∧
    (t.syncOp = .cmd ↔ ∃ d, i = .wrCtrlb d ∧ d.extractLsb' 16 2 ≠ 0#2 ∧ (s.grant = .i2cm ∨ s.grant = .i2cs))

/-! Reads and the engine window -/

/-- R80, whole: `RD_CTRLA` answers the fields at their bits and zeros elsewhere, and changes nothing. -/
def Obligations.ReadCtrlaFollowsRule : Prop :=
  ∀ s : State, s.Live → ∃ w : Word, exec .rdCtrla s = .next { s with reads := s.reads ++ [w] } ∧
    w.getLsbD 0 = s.ctrla.swrst ∧ w.getLsbD 1 = s.ctrla.enable ∧ w.extractLsb' 2 3 = s.ctrla.mode ∧
    w.extractLsb' 5 8 = 0#8 ∧ w.extractLsb' 13 3 = s.ctrla.sampr ∧ w.extractLsb' 16 6 = s.ctrla.pads ∧
    w.extractLsb' 22 2 = 0#2 ∧ w.extractLsb' 24 4 = s.ctrla.form ∧ w.getLsbD 28 = s.ctrla.cpha ∧
    w.getLsbD 29 = s.ctrla.cpol ∧ w.getLsbD 30 = s.ctrla.dord ∧ w.getLsbD 31 = false

/-- R81, whole: `RD_CTRLB`; CMD and the reserved bits read 0, while a command is pending too. -/
def Obligations.ReadCtrlbFollowsRule : Prop :=
  ∀ s : State, s.Live → ∃ w : Word, exec .rdCtrlb s = .next { s with reads := s.reads ++ [w] } ∧
    w.extractLsb' 0 3 = s.ctrlb.chsize ∧ w.extractLsb' 3 3 = 0#3 ∧ w.getLsbD 6 = s.ctrlb.sbmode ∧
    w.extractLsb' 7 6 = 0#6 ∧ w.getLsbD 13 = s.ctrlb.pmode ∧ w.extractLsb' 14 2 = 0#2 ∧
    w.extractLsb' 16 2 = 0#2 ∧ w.getLsbD 18 = s.ctrlb.ackact ∧ w.extractLsb' 19 13 = 0#13

/-- R82, whole: `RD_BAUD` answers BAUD extended with zeros. -/
def Obligations.ReadBaudFollowsRule : Prop :=
  ∀ s : State, s.Live → exec .rdBaud s = .next { s with reads := s.reads ++ [s.baud.setWidth 32] }

/-- R83, whole: `RD_ADDR`. -/
def Obligations.ReadAddrFollowsRule : Prop :=
  ∀ s : State, s.Live → ∃ w : Word, exec .rdAddr s = .next { s with reads := s.reads ++ [w] } ∧
    w.getLsbD 0 = s.addr.gencen ∧ w.extractLsb' 1 7 = s.addr.addr ∧ w.extractLsb' 8 24 = 0#24

/-- R84, whole: `RD_STATUS`: bit 15 is SYNCBUSY, bits 14:0 are the draw `eng_status` (a free value), the rest 0; no
event, and nothing else changes, the model's own count of draws aside (log 3). -/
def Obligations.ReadStatusFollowsRule : Prop :=
  ∀ s : State, s.Live → ∃ (w : Word) (k : Nat),
    exec .rdStatus s = .next { s with reads := s.reads ++ [w], draws := k } ∧
    (w.getLsbD 15 = true ↔ s.syncOp ≠ .none) ∧ w.extractLsb' 0 15 = Config.engStatus s.handle s.draws ∧
    w.extractLsb' 16 16 = 0#16

/-- R85, R86, R87: a forwarded read answers the draw `eng_rdata` (a free value) and is recorded for the granted engine
with its offset; with no grant nothing is recorded. Nothing else changes, the model's own count of draws aside
(log 3). -/
def Obligations.ForwardedReadsFollowRule : Prop :=
  ∀ s : State, s.Live → ∃ k : Nat,
    exec .rdEng0 s = .next { s with
      reads := s.reads ++ [Config.engRdata s.handle s.draws], draws := k,
      hist := if s.grant = .none then s.hist else s.hist ++ [.engRead s.grant 0x14#5] } ∧
    exec .rdEng1 s = .next { s with
      reads := s.reads ++ [Config.engRdata s.handle s.draws], draws := k,
      hist := if s.grant = .none then s.hist else s.hist ++ [.engRead s.grant 0x18#5] } ∧
    exec .rdEng2 s = .next { s with
      reads := s.reads ++ [Config.engRdata s.handle s.draws], draws := k,
      hist := if s.grant = .none then s.hist else s.hist ++ [.engRead s.grant 0x1C#5] }

/-- R88, R89, R90, R91: a forwarded write is recorded for the granted engine, a STATUS write with bits 14:0 alone;
with no grant it is lost; no state of the block changes and no synchronisation is checked. -/
def Obligations.ForwardedWritesFollowRule : Prop :=
  ∀ (d : Word) (s : State), s.Live →
    exec (.wrStatus d) s = .next { s with
      hist := if s.grant = .none then s.hist else s.hist ++ [.engWrite s.grant 0x10#5 (d &&& 0x00007FFF#32)] } ∧
    exec (.wrEng0 d) s = .next { s with
      hist := if s.grant = .none then s.hist else s.hist ++ [.engWrite s.grant 0x14#5 d] } ∧
    exec (.wrEng1 d) s = .next { s with
      hist := if s.grant = .none then s.hist else s.hist ++ [.engWrite s.grant 0x18#5 d] } ∧
    exec (.wrEng2 d) s = .next { s with
      hist := if s.grant = .none then s.hist else s.hist ++ [.engWrite s.grant 0x1C#5 d] }

/-- 20_memory.md sections 3 and 4: on a disabled, idle, unlocked block a word written through `MemWrite` reads back
through `MemRead` cut to the bits a write can store. -/
def Obligations.ReadAfterWriteSeesStoredFields : Prop :=
  ∀ (v : Word) (s : State), s.Live → s.syncOp = .none → s.ctrla.enable = false → s.ctrla.swrst = false →
    s.modeLocked = false →
    (v.extractLsb' 0 2 = 0#2 → ∃ t u, memWrite 0x00 v s = .next t ∧ memRead 0x00 t = .next u ∧
      u.rdata = v &&& 0x7F3FE01C#32) ∧
    (∃ t u, memWrite 0x04 v s = .next t ∧ memRead 0x04 t = .next u ∧ u.rdata = v &&& 0x00042047#32) ∧
    (∃ t u, memWrite 0x08 v s = .next t ∧ memRead 0x08 t = .next u ∧ u.rdata = v &&& 0x0000FFFF#32) ∧
    (∃ t u, memWrite 0x0C v s = .next t ∧ memRead 0x0C t = .next u ∧ u.rdata = v &&& 0x000000FF#32)

/-- 20_memory.md section 4: an offset that is not a multiple of 4, or at or beyond 0x20, is refused by both
primitives, with nothing else changed. -/
def Obligations.BusPrimitivesRefuseOtherOffsets : Prop :=
  ∀ (offset : Nat) (v : Word) (s : State), s.Live → offset % 4 ≠ 0 ∨ 0x20 ≤ offset →
    memRead offset s = .next { s with refused := some .badTxn } ∧
    memWrite offset v s = .next { s with refused := some .badTxn }

/-- 20_memory.md section 3, rule O3 of the list: after `RD_STATUS` returned bit 15 = 0 no synchronisation is pending
and every earlier write has taken full effect. -/
def Obligations.StatusClearMeansFullEffect : Prop :=
  ∀ s t : State, s.Inv → exec .rdStatus s = .next t → t.rdata.getLsbD 15 = false →
    t.syncOp = .none ∧ t.ctrla.swrst = false ∧ t.enEff = t.ctrla.enable ∧ t.cmdPending = none

/-- 10_state.md section 5: the history is recorded and read in no rule: whatever it holds, a transaction does the same
and appends the same events. -/
def Obligations.HistoryIsNeverRead : Prop :=
  ∀ (i : Instr) (s t : State) (h : List Event), exec i s = .next t →
    ∃ new, t.hist = s.hist ++ new ∧ exec i { s with hist := h } = .next { t with hist := h ++ new }

/-- 10_state.md section 5: the engines' inputs reach nothing but the read data: with other draws a transaction leaves
the same state but for the word it read, of a status read not its bit 15, and the model's own count of draws (log 3). -/
def Obligations.EngineInputsReachOnlyReadData : Prop :=
  ∀ (i : Instr) (s t : State) (n : Nat), exec i s = .next t →
    ∃ rs m, exec i { s with draws := n } = .next { t with reads := rs, draws := m } ∧
      (i = .rdStatus → ∃ w w' : Word, t.reads = s.reads ++ [w] ∧ rs = s.reads ++ [w'] ∧
        w'.getLsbD 15 = w.getLsbD 15) ∧
      (i = .rdEng0 ∨ i = .rdEng1 ∨ i = .rdEng2 → ∃ w w' : Word, t.reads = s.reads ++ [w] ∧ rs = s.reads ++ [w']) ∧
      (i ≠ .rdStatus → i ≠ .rdEng0 → i ≠ .rdEng1 → i ≠ .rdEng2 → rs = t.reads)

/-! The synchroniser and the arbiter -/

/-- R101, whole: a completed software reset. -/
def Obligations.SyncCompleteReset : Prop :=
  ∀ s : State, s.Live → s.syncOp = .reset →
    ∃ t, syncStep s = .next t ∧
      t = { s with
        ctrla := { swrst := false, enable := false, mode := 0#3, sampr := 0#3, pads := 0#6, form := 0#4,
                   cpha := false, cpol := false, dord := false }
        ctrlb := { chsize := 0#3, sbmode := false, pmode := false, ackact := false }
        baud := 0#16
        addr := { gencen := false, addr := 0#7 }
        enEff := false
        modeLocked := false
        cmdPending := none
        syncOp := .none
        hist := if s.enEff = true then s.hist ++ [.release (pers s.ctrla.mode), .engReset]
                else s.hist ++ [.engReset] } ∧
      t.seqState = .postreset ∧ t.syncBusy = false ∧ t.grant = .none

/-- R102, whole: a completed enable grants the block to the personality of MODE. -/
def Obligations.SyncCompleteEnable : Prop :=
  ∀ s : State, s.Live → s.Inv → s.syncOp = .enable →
    ∃ t, syncStep s = .next t ∧
      t = { s with enEff := true, syncOp := .none, hist := s.hist ++ [.grant (pers s.ctrla.mode)] } ∧
      t.grant = pers s.ctrla.mode ∧ t.grant ≠ .none ∧ t.seqState = .enabled ∧ t.syncBusy = false ∧
      [t.enUart, t.enSpi, t.enI2cm, t.enI2cs].count true = 1

/-- R103, whole: a completed disable releases the block; registers and the mode lock are kept. -/
def Obligations.SyncCompleteDisable : Prop :=
  ∀ s : State, s.Live → s.Inv → s.syncOp = .disable →
    ∃ t, syncStep s = .next t ∧
      t = { s with enEff := false, syncOp := .none, hist := s.hist ++ [.release (pers s.ctrla.mode)] } ∧
      t.grant = .none ∧ t.modeLocked = true ∧ t.seqState = .disabled ∧ t.syncBusy = false

/-- R104, whole: a completed command is delivered with the role and code latched at the write. -/
def Obligations.SyncCompleteCommand : Prop :=
  ∀ (s : State) (role : Role) (code : BitVec 2), s.Live → s.syncOp = .cmd → s.cmdPending = some (role, code) →
    ∃ t, syncStep s = .next t ∧
      t = { s with cmdPending := none, syncOp := .none, hist := s.hist ++ [.cmd role code] } ∧ t.syncBusy = false

/-- 42_sync_and_arbiter.md section 1: no step of another agent completes, cancels or replaces a pending
synchronisation. -/
def Obligations.OnlySyncEndsSynchronisation : Prop :=
  ∀ (u : Turn) (s t : State), u ≠ .sync → s.syncOp ≠ .none → runTurn u s = .next t →
    t.syncOp = s.syncOp ∧ t.cmdPending = s.cmdPending ∧ t.enEff = s.enEff

/-- 20_memory.md section 3, rule O2 of the list: the grant changes at a step of SYNC, not before. -/
def Obligations.GrantChangesOnlyBySync : Prop :=
  ∀ (u : Turn) (s t : State), s.Inv → u ≠ .sync → runTurn u s = .next t → t.grant = s.grant

/-- 42_sync_and_arbiter.md section 2: the grant by MODE code and `en_eff`, and at most one engine enable. -/
def Obligations.ArbiterGrantsAtMostOne : Prop :=
  ∀ s : State,
    (s.enEff = false → s.grant = .none) ∧
    (s.enEff = true → s.ctrla.mode = 1#3 → s.grant = .uart) ∧
    (s.enEff = true → s.ctrla.mode = 3#3 → s.grant = .spi) ∧
    (s.enEff = true → s.ctrla.mode = 4#3 → s.grant = .i2cs) ∧
    (s.enEff = true → s.ctrla.mode = 5#3 → s.grant = .i2cm) ∧
    (s.ctrla.mode ≠ 1#3 → s.ctrla.mode ≠ 3#3 → s.ctrla.mode ≠ 4#3 → s.ctrla.mode ≠ 5#3 → s.grant = .none) ∧
    [s.enUart, s.enSpi, s.enI2cm, s.enI2cs].count true = (if s.grant = .none then 0 else 1)

/-- 42_sync_and_arbiter.md section 3: every row of the table of transitions of `seq_state`. -/
def Obligations.SeqStateTransitions : Prop :=
  ∀ (d : Word) (s : State) (m : Personality), s.Live → s.Inv → m = pers (d.extractLsb' 2 3) →
    (s.syncOp = .none → d.getLsbD 0 = true →
      ∃ t, exec (.wrCtrla d) s = .next t ∧ t.seqState = .resetting) ∧
    (s.seqState = .resetting → ∃ t, syncStep s = .next t ∧ t.seqState = .postreset) ∧
    (s.seqState = .postreset → d.getLsbD 0 = false → d.getLsbD 1 = false → m ≠ .none →
      ∃ t, exec (.wrCtrla d) s = .next t ∧ t.seqState = .configured) ∧
    (s.seqState = .postreset → d.getLsbD 0 = false → d.getLsbD 1 = true → m ≠ .none →
      ∃ t, exec (.wrCtrla d) s = .next t ∧ t.seqState = .enabling) ∧
    (s.seqState = .postreset → d.getLsbD 0 = false → d.getLsbD 1 = true → m = .none →
      ∃ t, exec (.wrCtrla d) s = .next t ∧ t.seqState = .postreset ∧ t.refused = some .enableNone) ∧
    (s.seqState = .configured → d.getLsbD 0 = false → d.getLsbD 1 = false → m = .none →
      ∃ t, exec (.wrCtrla d) s = .next t ∧ t.seqState = .postreset) ∧
    (s.seqState = .configured → d.getLsbD 0 = false → d.getLsbD 1 = false → m ≠ .none →
      ∃ t, exec (.wrCtrla d) s = .next t ∧ t.seqState = .configured) ∧
    (s.seqState = .configured → d.getLsbD 0 = false → d.getLsbD 1 = true → m ≠ .none →
      ∃ t, exec (.wrCtrla d) s = .next t ∧ t.seqState = .enabling) ∧
    (s.seqState = .configured → d.getLsbD 0 = false → d.getLsbD 1 = true → m = .none →
      ∃ t, exec (.wrCtrla d) s = .next t ∧ t.seqState = .configured ∧ t.ctrla = s.ctrla ∧
        t.refused = some .enableNone) ∧
    (s.seqState = .disabled → d.getLsbD 0 = false → d.getLsbD 1 = false →
      ∃ t, exec (.wrCtrla d) s = .next t ∧ t.seqState = .disabled ∧ t.ctrla.mode = s.ctrla.mode) ∧
    (s.seqState = .disabled → d.getLsbD 0 = false → d.getLsbD 1 = true → pers s.ctrla.mode ≠ .none →
      ∃ t, exec (.wrCtrla d) s = .next t ∧ t.seqState = .enabling) ∧
    (s.seqState = .disabled → d.getLsbD 0 = false → d.getLsbD 1 = true → pers s.ctrla.mode = .none →
      ∃ t, exec (.wrCtrla d) s = .next t ∧ t.seqState = .disabled ∧ t.refused = some .enableNone) ∧
    (s.seqState = .enabling → ∃ t, syncStep s = .next t ∧ t.seqState = .enabled) ∧
    (s.seqState = .enabled → s.syncOp = .none → d.getLsbD 0 = false → d.getLsbD 1 = true →
      ∃ t, exec (.wrCtrla d) s = .next t ∧ t.seqState = .enabled) ∧
    (s.seqState = .enabled → s.syncOp = .none → d.getLsbD 0 = false → d.getLsbD 1 = false →
      ∃ t, exec (.wrCtrla d) s = .next t ∧ t.seqState = .disabling) ∧
    (s.seqState = .enabled → s.syncOp = .none → d.extractLsb' 16 2 ≠ 0#2 → s.grant = .i2cm ∨ s.grant = .i2cs →
      ∃ t, exec (.wrCtrlb d) s = .next t ∧ t.seqState = .enabled ∧ t.syncOp = .cmd) ∧
    (s.syncOp = .cmd → ∃ t, syncStep s = .next t ∧ t.seqState = .enabled ∧ t.syncOp = .none) ∧
    (s.seqState = .disabling → ∃ t, syncStep s = .next t ∧ t.seqState = .disabled) ∧
    (∃ t, exec (.wrCtrlb d) s = .next t ∧ t.seqState = s.seqState) ∧
    (∃ t, exec (.wrBaud d) s = .next t ∧ t.seqState = s.seqState) ∧
    (∃ t, exec (.wrAddr d) s = .next t ∧ t.seqState = s.seqState)

/-! Reset and invariants -/

/-- R170: the values of the column "after hardware reset", and what they derive. -/
def Obligations.HardwareResetValues : Prop :=
  State.reset.ctrla = { swrst := false, enable := false, mode := 0#3, sampr := 0#3, pads := 0#6, form := 0#4,
                        cpha := false, cpol := false, dord := false } ∧
  State.reset.ctrlb = { chsize := 0#3, sbmode := false, pmode := false, ackact := false } ∧
  State.reset.baud = 0#16 ∧ State.reset.addr = { gencen := false, addr := 0#7 } ∧
  State.reset.syncOp = .none ∧ State.reset.enEff = false ∧ State.reset.modeLocked = true ∧
  State.reset.cmdPending = none ∧ State.reset.fault = none ∧ State.reset.refused = none ∧
  State.reset.hist = [] ∧ State.reset.spiInited = false ∧ State.reset.upc = 0 ∧
  State.reset.seqState = .disabled ∧ State.reset.grant = .none

/-- 10_state.md section 4: the invariants hold at hardware reset, with the order of the (empty) history and of the
sequencer's frames. -/
def Obligations.InvariantsHoldAtReset : Prop :=
  State.reset.Inv ∧ State.reset.HistInv ∧ State.reset.SeqInv

/-- 10_state.md section 4: every step of every agent keeps I1 to I9. -/
def Obligations.StepKeepsInvariants : Prop :=
  ∀ s t : State, s.Inv → step s = .next t → t.Inv

/-- 41_reads_and_engine_window.md section 3 and 42_sync_and_arbiter.md section 2: every step keeps the history in order
and its owner equal to the grant. -/
def Obligations.StepKeepsHistoryInOrder : Prop :=
  ∀ s t : State, s.Inv → s.HistInv → step s = .next t → t.HistInv

/-- 42_sync_and_arbiter.md section 2: the personality can change only through a completed software reset: after a step
of any agent from a state whose history is in order, and so in every run from hardware reset whatever turns it is given. -/
def Obligations.PersonalitySwitchNeedsReset : Prop :=
  (∀ s t : State, s.Inv → s.HistInv → step s = .next t → SwitchNeedsReset t.hist) ∧
  (∀ s : State, Reachable s → SwitchNeedsReset s.hist)

/-- 41_reads_and_engine_window.md section 3: no access is forwarded between a release and the next grant: after a step
of any agent from a state whose history is in order, and so in every run from hardware reset whatever turns it is given. -/
def Obligations.NoAccessForwardedWhileReleased : Prop :=
  (∀ s t : State, s.Inv → s.HistInv → step s = .next t → QuietWhileReleased t.hist) ∧
  (∀ s : State, Reachable s → QuietWhileReleased s.hist)

/-- 42_sync_and_arbiter.md section 2: the granted engine sees constant configuration from its grant to its release, but
for ACKACT. -/
def Obligations.GrantedEngineSeesConstantConfig : Prop :=
  ∀ s t : State, s.Inv → step s = .next t → s.grant ≠ .none → t.grant ≠ .none →
    { t.cfg with ackact := s.cfg.ackact } = s.cfg ∧ t.grant = s.grant

/-- 10_state.md section 3: `mode_locked` is cleared only by the completion of a software reset, and MODE changes only
while it is 0 or by that completion, which appends `EngReset`. -/
def Obligations.ModeUnlockedOnlyByReset : Prop :=
  ∀ s t : State, step s = .next t → s.modeLocked = true →
    (t.modeLocked = false → s.syncOp = .reset ∧ ∃ h, t.hist = h ++ [.engReset]) ∧
    (t.ctrla.mode ≠ s.ctrla.mode → t.modeLocked = false ∧ t.ctrla.mode = 0#3)

/-- 43_sequencer.md section 1: the step pointer of every expansion in progress stays on a line of it. -/
def Obligations.StepKeepsStepPointersInRange : Prop :=
  ∀ s t : State, s.SeqInv → step s = .next t → t.SeqInv

/-! Marks, the clock premise, and the order of checks -/

/-- 10_state.md section 3: in a marked state no further step has a meaning; the model stops there by name (log 1). -/
def Obligations.MarkedStateIsQuiescent : Prop :=
  ∀ s : State, s.clkReady = true →
    (∀ c, s.fault = some c → step s = .fault (.marked c) ∧ (∀ i, exec i s = .fault (.marked c))) ∧
    (∀ c, s.fault = none → s.refused = some c →
      step s = .refused (.marked c) ∧ (∀ i, exec i s = .refused (.marked c)))

/-- R172: without `clk_ready` the model refuses, whichever agent's turn it is. -/
def Obligations.NoClockIsRefused : Prop :=
  ∀ s : State, s.clkReady = false → step s = .refused .clkNotReady ∧ (∀ i, exec i s = .refused .clkNotReady)

/-- R151: a transaction that faults or is refused has no other effect. -/
def Obligations.FaultOrRefusalVoidsTheStep : Prop :=
  ∀ (i : Instr) (s t : State), exec i s = .next t → t.marked = true →
    (t = { s with fault := some .fSync } ∧ isControlWrite i = true ∧ s.syncOp ≠ .none) ∨
    (t = { s with refused := some .enableNone } ∧ (∃ d, i = .wrCtrla d) ∧ s.syncOp = .none)

/-- 60_exceptions.md section 3: the order of the checks inside one step of the host: the decoder's, the sync check,
the reset, the refusal of an enable with no personality. -/
def Obligations.ChecksComeInOrder : Prop :=
  ∀ (w : TxnWord) (s : State), s.Live →
    ((w.extractLsb' 37 2 ≠ 0#2 ∨ w.extractLsb' 32 2 ≠ 0#2) → s.syncOp ≠ .none →
      hostStep w s = .next { s with refused := some .badTxn }) ∧
    (w.extractLsb' 32 8 = 0x80#8 → w.getLsbD 0 = true → s.syncOp ≠ .none →
      hostStep w s = .next { s with fault := some .fSync }) ∧
    (w.extractLsb' 32 8 = 0x80#8 → w.getLsbD 0 = true → w.getLsbD 1 = true → s.syncOp = .none →
      s.ctrla.enable = false → pers s.ctrla.mode = .none →
      hostStep w s = .next { s with ctrla := { s.ctrla with swrst := true }, syncOp := .reset }) ∧
    (w.extractLsb' 32 8 = 0x80#8 → w.getLsbD 0 = false → w.getLsbD 1 = true → s.syncOp = .none →
      s.ctrla.enable = false → s.modeLocked = true → pers s.ctrla.mode = .none →
      hostStep w s = .next { s with refused := some .enableNone })

/-! The sequencer -/

/-- 43_sequencer.md sections 1 and 5: the lines of the two waits, `WAIT_SYNC` (reads STATUS) and `WAIT_RESET` (reads CTRLA
and STATUS). A read changes nothing of the block, the model's own count of draws aside (log 3). The last line leaves the
wait exactly when every bit it tests was 0: a wait handed over by itself ends `OK`, a called one ends with every caller
that has no line left, and the next caller goes on. Otherwise it goes round, but for a finite limit that this poll
reaches, and then the request ends with `Timeout`. -/
def Obligations.WaitsPollUntilClear : Prop :=
  ∀ (s : State) (f : Frame) (rest : List Frame), s.Live → s.frames = f :: rest →
    (f.req = .waitSync → f.upc = 0 → ∃ (w : Word) (k : Nat), (w.getLsbD 15 = true ↔ s.syncOp ≠ .none) ∧
      seqStep s = .next { s with
        reads := s.reads ++ [w], draws := k, frames := { f with upc := 1, locals := { f.locals with s := w } } :: rest }) ∧
    (f.req = .waitReset → f.upc = 0 → ∃ w : Word, w.getLsbD 0 = s.ctrla.swrst ∧
      seqStep s = .next { s with
        reads := s.reads ++ [w], frames := { f with upc := 1, locals := { f.locals with a := w } } :: rest }) ∧
    (f.req = .waitReset → f.upc = 1 → ∃ (w : Word) (k : Nat), (w.getLsbD 15 = true ↔ s.syncOp ≠ .none) ∧
      seqStep s = .next { s with
        reads := s.reads ++ [w], draws := k, frames := { f with upc := 2, locals := { f.locals with s := w } } :: rest }) ∧
    (∀ busy : Bool,
      (f.req = .waitSync ∧ f.upc = 1 ∧ busy = f.locals.s.getLsbD 15) ∨
      (f.req = .waitReset ∧ f.upc = 2 ∧ busy = (f.locals.a.getLsbD 0 || f.locals.s.getLsbD 15)) →
      (busy = true →
        match Config.waitLimit with
        | none => seqStep s = .next { s with frames := { f with upc := 0, polls := f.polls + 1 } :: rest }
        | some n =>
          if n ≤ f.polls + 1 then
            seqStep s = .next { s with frames := dropRequest (f :: rest), outcome := some .timeout }
          else seqStep s = .next { s with frames := { f with upc := 0, polls := f.polls + 1 } :: rest }) ∧
      (busy = false → f.nested = false →
        seqStep s = .next { s with frames := rest, outcome := some (.ok f.value) }) ∧
      (∀ (done : List Frame) (g : Frame) (below : List Frame), busy = false → f.nested = true →
        rest = done ++ g :: below → (∀ h ∈ done, h.nested = true ∧ lineCount h.req ≤ h.upc + 1) →
        (g.upc + 1 < lineCount g.req →
          seqStep s = .next { s with frames := { g with upc := g.upc + 1 } :: below }) ∧
        (lineCount g.req ≤ g.upc + 1 → g.nested = false →
          seqStep s = .next { s with frames := below, outcome := some (.ok g.value) })))

/-- 43_sequencer.md section 5: at the last line of a wait of either kind that did not succeed, by cases on the limit:
with none it goes round; a finite limit that this poll reaches ends the enclosing request, `g`, with outcome `Timeout`
and every expansion it called, the block as it is, so that a control write on what is left faults while the
synchronisation is pending; below the limit it goes round. -/
def Obligations.WaitTimesOutAtItsLimit : Prop :=
  ∀ (s : State) (called : List Frame) (f g : Frame) (below : List Frame), s.Live → s.frames = called ++ g :: below →
    s.frames.head? = some f → (∀ h ∈ called, h.nested = true) → g.nested = false →
    (f.req = .waitSync ∧ f.upc = 1 ∧ f.locals.s.getLsbD 15 = true) ∨
    (f.req = .waitReset ∧ f.upc = 2 ∧ (f.locals.a.getLsbD 0 = true ∨ f.locals.s.getLsbD 15 = true)) →
    match Config.waitLimit with
    | none => seqStep s = .next { s with frames := { f with upc := 0, polls := f.polls + 1 } :: s.frames.tail }
    | some n =>
      if n ≤ f.polls + 1 then
        ∃ t, seqStep s = .next t ∧ t = { s with frames := below, outcome := some .timeout } ∧
          (s.syncOp ≠ .none → ∀ i, isControlWrite i = true → exec i t = .next { t with fault := some .fSync })
      else seqStep s = .next { s with frames := { f with upc := 0, polls := f.polls + 1 } :: s.frames.tail }

/-- R124 and R125, the net effects of `SEQ_ENABLE` and `SEQ_DISABLE`, run without interleaved writes and with SYNC
stepping when the wait begins; the marks stay clear, the request ends `OK`. -/
def Obligations.EnableAndDisableRequests : Prop :=
  ∀ s : State, s.Live → s.Inv → s.syncOp = .none → s.frames = [] →
    (s.ctrla.enable = false → pers s.ctrla.mode ≠ .none →
      s.schedule = [.request .enable, .seq, .seq, .seq, .sync, .seq, .seq] →
      ∃ (ws : List Word) (k : Nat), Host.Core.run Sys2Proof.core 7 s = .next { s with
        ctrla := { s.ctrla with enable := true }
        enEff := true
        modeLocked := true
        hist := s.hist ++ [.grant (pers s.ctrla.mode)]
        outcome := some (.ok none)
        schedule := []
        reads := s.reads ++ ws
        draws := k }) ∧
    (s.ctrla.enable = true → s.schedule = [.request .disable, .seq, .seq, .seq, .sync, .seq, .seq] →
      ∃ (ws : List Word) (k : Nat), Host.Core.run Sys2Proof.core 7 s = .next { s with
        ctrla := { s.ctrla with enable := false }
        enEff := false
        hist := s.hist ++ [.release (pers s.ctrla.mode)]
        outcome := some (.ok none)
        schedule := []
        reads := s.reads ++ ws
        draws := k })

/-- R123, the net effect of `SEQ_RESET` on a disabled and on an enabled block, with SYNC stepping when each of its waits
begins: POSTRESET with every register 0, and `hist` gains `Release(p)` if an engine `p` was granted, then `EngReset`. -/
def Obligations.ResetRequestReachesPostreset : Prop :=
  ∀ s : State, s.Live → s.Inv → s.syncOp = .none → s.frames = [] →
    s.schedule = .request .reset :: resetTurns s.ctrla.enable →
    ∃ (t : State) (ws : List Word) (k : Nat), Host.Core.run Sys2Proof.core s.schedule.length s = .next t ∧
      t = { s with
        ctrla := {}
        ctrlb := {}
        baud := 0#16
        addr := {}
        enEff := false
        modeLocked := false
        hist := s.hist ++ (if s.grant = .none then [] else [.release s.grant]) ++ [.engReset]
        outcome := some (.ok none)
        schedule := []
        reads := s.reads ++ ws
        draws := k } ∧ t.seqState = .postreset ∧ t.grant = .none

/-- 43_sequencer.md sections 4 and 5, the front-ends. `SEQ_SET_BAUD_SPI 0`, a second `SEQ_BEGIN_SPI` and a second
`SEQ_END_SPI` issue no transaction. `SEQ_CONFIG_SPI`, a first `SEQ_BEGIN_SPI` (with `SPI_DEFAULTS`) and the `begin` of the
UART and I2C front-ends are an initialisation followed by an enable; `SEQ_END_SPI` after a begin and the other `end` are a
reset. From a disabled and from an enabled block, SYNC stepping when each wait begins. The SPI begin
sets the latch `spi_inited`, the SPI end clears it, and the other requests named here leave it. -/
def Obligations.FrontEndRequests : Prop :=
  ∀ (s : State) (r : Request), s.Live → s.frames = [] →
    (s.schedule = [.request r, .seq] →
      r = .setBaudSpi 0 ∨ (r = .beginSpi ∧ s.spiInited = true) ∨ (r = .endSpi ∧ s.spiInited = false) →
      Host.Core.run Sys2Proof.core 2 s = .next { s with schedule := [], outcome := some (.ok none) }) ∧
    (∀ (calls writes latches : Nat) (inited : Bool) (a : CtrlA) (b : CtrlB) (baud : BitVec 16) (adr : AddrReg),
      s.Inv → s.syncOp = .none →
      (∃ st : SpiSettings,
        (r = .configSpi st ∧ calls = 2 ∧ latches = 0 ∧ inited = s.spiInited ∨
          r = .beginSpi ∧ st = Config.spiDefaults ∧ s.spiInited = false ∧ calls = 4 ∧ latches = 1 ∧ inited = true) ∧
        writes = 3 ∧ a = { enable := true, mode := 3#3, pads := st.pads, cpha := st.cpha, cpol := st.cpol, dord := st.dord } ∧
        b = { chsize := st.chsize } ∧ baud = st.baudval ∧ adr = {}) ∨
      (∃ sampr pads form dord chsize sbmode pmode,
        r = .beginUart sampr pads form dord chsize sbmode pmode baud ∧ calls = 2 ∧ latches = 0 ∧ inited = s.spiInited ∧
        writes = 3 ∧ a = { enable := true, mode := 1#3, sampr := sampr, pads := pads, form := form, dord := dord } ∧
        b = { chsize := chsize, sbmode := sbmode, pmode := pmode } ∧ adr = {}) ∨
      (r = .beginI2cm baud ∧ calls = 2 ∧ latches = 0 ∧ inited = s.spiInited ∧ writes = 2 ∧
        a = { enable := true, mode := 5#3 } ∧ b = {} ∧ adr = {}) ∨
      (r = .beginI2cs adr.addr adr.gencen ∧ calls = 2 ∧ latches = 0 ∧ inited = s.spiInited ∧ writes = 2 ∧
        a = { enable := true, mode := 4#3 } ∧ b = {} ∧ baud = 0#16) →
      s.schedule = .request r :: (List.replicate calls .seq ++ (resetTurns s.ctrla.enable ++
        (List.replicate (writes + 1) .seq ++ (waitedWrite ++ List.replicate latches .seq)))) →
      ∃ (t : State) (ws : List Word) (k : Nat), Host.Core.run Sys2Proof.core s.schedule.length s = .next t ∧
        t = { s with
          ctrla := a
          ctrlb := b
          baud := baud
          addr := adr
          enEff := true
          modeLocked := true
          hist := s.hist ++ (if s.grant = .none then [] else [.release s.grant]) ++ [.engReset, .grant (pers a.mode)]
          spiInited := inited
          outcome := some (.ok none)
          schedule := []
          reads := s.reads ++ ws
          draws := k } ∧ t.seqState = .enabled ∧ t.grant = pers a.mode) ∧
    (∀ (calls latches : Nat) (inited : Bool), s.Inv → s.syncOp = .none →
      (r = .endSpi ∧ s.spiInited = true ∧ calls = 2 ∧ latches = 1 ∧ inited = false) ∨
      (r = .endFrontEnd ∧ calls = 1 ∧ latches = 0 ∧ inited = s.spiInited) →
      s.schedule = .request r :: (List.replicate calls .seq ++ (resetTurns s.ctrla.enable ++ List.replicate latches .seq)) →
      ∃ (t : State) (ws : List Word) (k : Nat), Host.Core.run Sys2Proof.core s.schedule.length s = .next t ∧
        t = { s with
          ctrla := {}
          ctrlb := {}
          baud := 0#16
          addr := {}
          enEff := false
          modeLocked := false
          hist := s.hist ++ (if s.grant = .none then [] else [.release s.grant]) ++ [.engReset]
          spiInited := inited
          outcome := some (.ok none)
          schedule := []
          reads := s.reads ++ ws
          draws := k } ∧ t.seqState = .postreset)

/-- R139: `SEQ_IS_MASTER` returns 1 exactly when MODE is 5, and changes nothing of the block. -/
def Obligations.IsMasterReadsTheMode : Prop :=
  ∀ s : State, s.Live → s.frames = [] → s.schedule = [.request .isMaster, .seq, .seq] →
    ∃ w : Word, Host.Core.run Sys2Proof.core 3 s = .next { s with
      schedule := [], reads := s.reads ++ [w], outcome := some (.ok (some (decide (s.ctrla.mode = 5#3)))) }

/-- R139 to R142: `SEQ_ACK`, `SEQ_NACK` and `SEQ_CMD` are refused with `X_ROLE`, before any write, when MODE is neither
4 nor 5. -/
def Obligations.WrongRoleIsRefused : Prop :=
  ∀ (s : State) (r : Request), s.Live → s.frames = [] → s.ctrla.mode ≠ 4#3 → s.ctrla.mode ≠ 5#3 →
    r = .ack ∨ r = .nack ∨ (∃ code, r = .command code) → s.schedule = [.request r, .seq, .seq, .seq] →
    ∃ w : Word, Host.Core.run Sys2Proof.core 4 s = .next { s with
      schedule := [], reads := s.reads ++ [w], refused := some .role, outcome := some (.refused .role) }

/-- R140, R141: with MODE 4 or 5, `SEQ_ACK` clears and `SEQ_NACK` sets ACKACT, and nothing else changes. -/
def Obligations.AckAndNackRequests : Prop :=
  ∀ (s : State) (r : Request) (v : Bool), s.Live → s.syncOp = .none → s.frames = [] →
    s.ctrla.mode = 4#3 ∨ s.ctrla.mode = 5#3 → (r = .ack ∧ v = false) ∨ (r = .nack ∧ v = true) →
    s.schedule = [.request r, .seq, .seq, .seq, .seq, .seq] →
    ∃ ws : List Word, Host.Core.run Sys2Proof.core 6 s = .next { s with
      ctrlb := { s.ctrlb with ackact := v }
      schedule := []
      reads := s.reads ++ ws
      outcome := some (.ok none) }

/-- R126 to R129, the net effects of the four configuration requests, on a disabled and on an enabled block, with SYNC
stepping when each wait of their reset begins: CONFIGURED with the fields as given, every other field 0, and `hist` gains
`Release(p)` if an engine `p` was granted, then `EngReset`. -/
def Obligations.InitRequestsConfigureTheBlock : Prop :=
  ∀ (s : State) (r : Request) (writes : Nat) (a : CtrlA) (b : CtrlB) (baud : BitVec 16) (adr : AddrReg),
    s.Live → s.Inv → s.syncOp = .none → s.frames = [] →
    (∃ sampr pads form dord chsize sbmode pmode,
      r = .initUart sampr pads form dord chsize sbmode pmode baud ∧ writes = 3 ∧
      a = { mode := 1#3, sampr := sampr, pads := pads, form := form, dord := dord } ∧
      b = { chsize := chsize, sbmode := sbmode, pmode := pmode } ∧ adr = {}) ∨
    (∃ st : SpiSettings, r = .initSpi st ∧ writes = 3 ∧
      a = { mode := 3#3, pads := st.pads, cpha := st.cpha, cpol := st.cpol, dord := st.dord } ∧
      b = { chsize := st.chsize } ∧ baud = st.baudval ∧ adr = {}) ∨
    (r = .initI2cm baud ∧ writes = 2 ∧ a = { mode := 5#3 } ∧ b = {} ∧ adr = {}) ∨
    (r = .initI2cs adr.addr adr.gencen ∧ writes = 2 ∧ a = { mode := 4#3 } ∧ b = {} ∧ baud = 0#16) →
    s.schedule = .request r :: .seq :: (resetTurns s.ctrla.enable ++ List.replicate writes .seq) →
    ∃ (t : State) (ws : List Word) (k : Nat), Host.Core.run Sys2Proof.core s.schedule.length s = .next t ∧
      t = { s with
        ctrla := a
        ctrlb := b
        baud := baud
        addr := adr
        enEff := false
        modeLocked := false
        hist := s.hist ++ (if s.grant = .none then [] else [.release s.grant]) ++ [.engReset]
        outcome := some (.ok none)
        schedule := []
        reads := s.reads ++ ws
        draws := k } ∧ t.seqState = .configured ∧ t.grant = .none

/-- R131, R132, R133: a protected setter on an enabled block, with SYNC stepping when each of its waits begins, changes
its own fields and nothing else of the registers: the engine is released and granted again, the block is enabled. -/
def Obligations.ProtectedSettersMutateWhileDisabled : Prop :=
  ∀ (s : State) (r : Request) (before between : Nat) (a : CtrlA) (baud : BitVec 16),
    s.Live → s.Inv → s.syncOp = .none → s.frames = [] → s.ctrla.enable = true →
    (∃ v, r = .setDordSpi v ∧ before = 4 ∧ between = 8 ∧ a = { s.ctrla with dord := v } ∧ baud = s.baud) ∨
    (∃ cpol cpha, r = .setClkmodeSpi cpol cpha ∧ before = 4 ∧ between = 8 ∧
      a = { s.ctrla with cpol := cpol, cpha := cpha } ∧ baud = s.baud) ∨
    (∃ divisor, r = .setBaudSpi divisor ∧ divisor ≠ 0 ∧ before = 5 ∧ between = 7 ∧ a = s.ctrla ∧
      baud = Config.spiBaudFn divisor) →
    s.schedule = .request r ::
      (List.replicate before .seq ++ .sync :: (List.replicate between .seq ++ [.sync, .seq, .seq])) →
    ∃ (ws : List Word) (k : Nat), Host.Core.run Sys2Proof.core 17 s = .next { s with
      ctrla := a
      baud := baud
      hist := s.hist ++ [.release (pers s.ctrla.mode), .grant (pers s.ctrla.mode)]
      outcome := some (.ok none)
      schedule := []
      reads := s.reads ++ ws
      draws := k }

/-- R142: on an enabled I2C block `SEQ_CMD` delivers a non-zero command in the granted role and keeps ACKACT and every
other stored bit, with SYNC stepping when its wait begins. -/
def Obligations.CommandRequestDeliversTheCommand : Prop :=
  ∀ (s : State) (role : Role) (code : BitVec 2), s.Live → s.Inv → s.syncOp = .none → s.frames = [] →
    (s.grant = .i2cm ∧ role = .master) ∨ (s.grant = .i2cs ∧ role = .slave) → code ≠ 0#2 →
    s.schedule = .request (.command code) :: (List.replicate 6 .seq ++ [.sync, .seq, .seq]) →
    ∃ (ws : List Word) (k : Nat), Host.Core.run Sys2Proof.core 10 s = .next { s with
      hist := s.hist ++ [.cmd role code]
      outcome := some (.ok none)
      schedule := []
      reads := s.reads ++ ws
      draws := k }

/-- R120: a request whose transaction faults or is refused ends there with that outcome, with every expansion it
called. -/
def Obligations.FaultEndsTheRequest : Prop :=
  ∀ (s u : State) (f : Frame) (rest : List Frame) (i : Instr), s.Live → s.frames = f :: rest →
    (expansion f.locals s.spiInited f.req)[f.upc]? = some (.txn i) → exec i s = .next u →
    (∀ c, u.fault = some c → seqStep s = .next { s with
      fault := some c, frames := dropRequest (f :: rest), outcome := some (.fault c) }) ∧
    (∀ c, u.fault = none → u.refused = some c → seqStep s = .next { s with
      refused := some c, frames := dropRequest (f :: rest), outcome := some (.refused c) })

/-! The step -/

/-- A turn of the host whose word decodes runs the decoded transaction, on the state with that turn taken; a turn of
another agent is that agent's step (R9). That the head of `State.schedule` takes the next turn is the model's choice
(DESIGN CHOICE, log 2): the spec makes the schedule a parameter of the step relation and no state (R10). -/
def Obligations.StepRunsTheTurn : Prop :=
  ∀ (s : State) (rest : List Turn),
    (∀ (w : TxnWord) (i : Instr), s.schedule = .host w :: rest → decode w = .ok i → i.wellFormed = true →
      step s = exec i { s with schedule := rest }) ∧
    (s.schedule = .sync :: rest → step s = syncStep { s with schedule := rest }) ∧
    (∀ r, s.schedule = .request r :: rest → step s = requestStep r { s with schedule := rest }) ∧
    (s.schedule = .seq :: rest → step s = seqStep { s with schedule := rest })

/-- A word placed by `withFetchWord` is the next step's transaction, in every state. -/
def Obligations.PlacedWordRunsNext : Prop :=
  ∀ (s : State) (w : Nat) (i : Instr), decodeTableWord 40 w = some i → step (s.withFetchWord 40 w) = exec i s

/-- With no turn given, the next agent is the model's choice (DESIGN CHOICE, logs 2 and 7): an idle block stays as it is;
SYNC steps if it alone has a step, SEQ if it alone has one; where both have one a free value decides, by the instance and
the number of such choices so far, and that number is all that the choice itself changes. -/
def Obligations.StepWithNoTurnGiven : Prop :=
  ∀ s : State, s.schedule = [] →
    (s.frames = [] → s.syncOp = .none → s.Live → step s = .next s) ∧
    (s.frames = [] → s.syncOp ≠ .none → step s = syncStep s) ∧
    (s.frames ≠ [] → s.syncOp = .none → step s = seqStep s) ∧
    (s.frames ≠ [] → s.syncOp ≠ .none → ∃ k, s.picks < k ∧
      step s = if Config.syncFirst s.handle s.picks = true then syncStep { s with picks := k }
               else seqStep { s with picks := k })

/-- 10_state.md section 7: a step of one instance neither reads nor writes another. -/
def Obligations.InstancesAreIndependent : Prop :=
  ∀ (k : Nat) (c c' : Chip), c.stepAt k = some (.next c') →
    c'.instances.length = c.instances.length ∧
    (∀ j, j ≠ k → c'.instances[j]? = c.instances[j]?) ∧
    (∃ s t, c.instances[k]? = some s ∧ step s = .next t ∧ c'.instances[k]? = some t)
end

