-- ==== Sys2Proof/Laws/Decode.lean ====
section
/-! SUPPORT. The fields of an encoded transaction (R60, R62, R68). -/

namespace Sys2Proof

theorem txnOf_getLsbD (h : BitVec 8) (d : Word) (j : Nat) :
    (txnOf h d).getLsbD j = if j < 32 then d.getLsbD j else h.getLsbD (j - 32) :=
  BitVec.getLsbD_append

@[simp] theorem header_txnOf (h : BitVec 8) (d : Word) : TxnWord.header (txnOf h d) = h := by
  apply BitVec.eq_of_getLsbD_eq; intro i hi
  have : ¬ 32 + i < 32 := by omega
  simp [TxnWord.header, txnOf_getLsbD, hi]

@[simp] theorem wdata_txnOf (h : BitVec 8) (d : Word) : TxnWord.wdata (txnOf h d) = d := by
  apply BitVec.eq_of_getLsbD_eq; intro i hi
  simp [TxnWord.wdata, txnOf_getLsbD, hi]

@[simp] theorem encode_header (i : Instr) : TxnWord.header (encode i) = headerOf i := header_txnOf _ _

@[simp] theorem encode_wdata (i : Instr) : TxnWord.wdata (encode i) = wdataOf i := wdata_txnOf _ _

/-- The reserved bits are bits 6:5 of the header (R60). -/
theorem reserved_eq (t : TxnWord) : TxnWord.reserved t = (TxnWord.header t).extractLsb' 5 2 := by
  apply BitVec.eq_of_getLsbD_eq; intro i hi
  interval_cases i <;> simp [TxnWord.reserved, TxnWord.header]

/-- The check on the reserved bits, by the header byte (R63). -/
theorem reservedClear_eq (t : TxnWord) : TxnWord.reservedClear t = ((TxnWord.header t).extractLsb' 5 2 == 0#2) := by
  rw [← reserved_eq]; rfl

/-- The low offset bits are bits 1:0 of the header (R60). -/
theorem aligned_eq (t : TxnWord) : TxnWord.aligned t = ((TxnWord.header t).extractLsb' 0 2 == 0#2) := by
  have : t.extractLsb' 32 2 = (TxnWord.header t).extractLsb' 0 2 := by
    apply BitVec.eq_of_getLsbD_eq; intro i hi
    interval_cases i <;> simp [TxnWord.header]
  simp [TxnWord.aligned, this]

/-- The offset is bits 4:0 of the header (R60). -/
theorem offset_eq (t : TxnWord) : TxnWord.offset t = (TxnWord.header t).extractLsb' 0 5 := by
  apply BitVec.eq_of_getLsbD_eq; intro i hi
  interval_cases i <;> simp [TxnWord.offset, TxnWord.header]

/-- The write-enable bit is bit 7 of the header (R60). -/
theorem we_eq (t : TxnWord) : TxnWord.we t = (TxnWord.header t).getLsbD 7 := by
  simp [TxnWord.we, TxnWord.header]

/-- A word is its header byte followed by its write data (R60). -/
theorem word_split (t : TxnWord) : t = txnOf (TxnWord.header t) (TxnWord.wdata t) := by
  apply BitVec.eq_of_getLsbD_eq; intro i hi
  rw [txnOf_getLsbD]
  by_cases h : i < 32
  · simp [TxnWord.wdata, h]
  · have h2 : i - 32 < 8 := by omega
    have h3 : 32 + (i - 32) = i := by omega
    simp [TxnWord.header, h, h2, h3]

end Sys2Proof
end

