-- ==== Sys2Proof/Laws/State.lean ====
section
/-! SUPPORT. What each named update of State does to each field, and that the derived values of R29 and R32 look
through the updates that do not touch them. -/

namespace Sys2Proof.Machine

section
variable (s : State)

/-! emit -/
@[simp] theorem State.emit_ctrla (e : Event) : (s.emit e).ctrla = s.ctrla := rfl
@[simp] theorem State.emit_ctrlb (e : Event) : (s.emit e).ctrlb = s.ctrlb := rfl
@[simp] theorem State.emit_baud (e : Event) : (s.emit e).baud = s.baud := rfl
@[simp] theorem State.emit_addr (e : Event) : (s.emit e).addr = s.addr := rfl
@[simp] theorem State.emit_syncOp (e : Event) : (s.emit e).syncOp = s.syncOp := rfl
@[simp] theorem State.emit_enEff (e : Event) : (s.emit e).enEff = s.enEff := rfl
@[simp] theorem State.emit_modeLocked (e : Event) : (s.emit e).modeLocked = s.modeLocked := rfl
@[simp] theorem State.emit_cmdPending (e : Event) : (s.emit e).cmdPending = s.cmdPending := rfl
@[simp] theorem State.emit_fault (e : Event) : (s.emit e).fault = s.fault := rfl
@[simp] theorem State.emit_refused (e : Event) : (s.emit e).refused = s.refused := rfl
@[simp] theorem State.emit_hist (e : Event) : (s.emit e).hist = s.hist ++ [e] := rfl
@[simp] theorem State.emit_spiInited (e : Event) : (s.emit e).spiInited = s.spiInited := rfl
@[simp] theorem State.emit_frames (e : Event) : (s.emit e).frames = s.frames := rfl
@[simp] theorem State.emit_outcome (e : Event) : (s.emit e).outcome = s.outcome := rfl
@[simp] theorem State.emit_reads (e : Event) : (s.emit e).reads = s.reads := rfl
@[simp] theorem State.emit_rdata (e : Event) : (s.emit e).rdata = s.rdata := rfl
@[simp] theorem State.emit_clkReady (e : Event) : (s.emit e).clkReady = s.clkReady := rfl
@[simp] theorem State.emit_schedule (e : Event) : (s.emit e).schedule = s.schedule := rfl
@[simp] theorem State.emit_draws (e : Event) : (s.emit e).draws = s.draws := rfl
@[simp] theorem State.emit_handle (e : Event) : (s.emit e).handle = s.handle := rfl
@[simp] theorem State.emit_picks (e : Event) : (s.emit e).picks = s.picks := rfl
@[simp] theorem State.emit_grant (e : Event) : (s.emit e).grant = s.grant := rfl
@[simp] theorem State.emit_cfg (e : Event) : (s.emit e).cfg = s.cfg := rfl
@[simp] theorem State.emit_syncBusy (e : Event) : (s.emit e).syncBusy = s.syncBusy := rfl
@[simp] theorem State.emit_seqState (e : Event) : (s.emit e).seqState = s.seqState := rfl

/-! raise -/
@[simp] theorem State.raise_ctrla (c : FaultCode) : (s.raise c).ctrla = s.ctrla := rfl
@[simp] theorem State.raise_ctrlb (c : FaultCode) : (s.raise c).ctrlb = s.ctrlb := rfl
@[simp] theorem State.raise_baud (c : FaultCode) : (s.raise c).baud = s.baud := rfl
@[simp] theorem State.raise_addr (c : FaultCode) : (s.raise c).addr = s.addr := rfl
@[simp] theorem State.raise_syncOp (c : FaultCode) : (s.raise c).syncOp = s.syncOp := rfl
@[simp] theorem State.raise_enEff (c : FaultCode) : (s.raise c).enEff = s.enEff := rfl
@[simp] theorem State.raise_modeLocked (c : FaultCode) : (s.raise c).modeLocked = s.modeLocked := rfl
@[simp] theorem State.raise_cmdPending (c : FaultCode) : (s.raise c).cmdPending = s.cmdPending := rfl
@[simp] theorem State.raise_fault (c : FaultCode) : (s.raise c).fault = s.fault.or (some c) := rfl
@[simp] theorem State.raise_refused (c : FaultCode) : (s.raise c).refused = s.refused := rfl
@[simp] theorem State.raise_hist (c : FaultCode) : (s.raise c).hist = s.hist := rfl
@[simp] theorem State.raise_spiInited (c : FaultCode) : (s.raise c).spiInited = s.spiInited := rfl
@[simp] theorem State.raise_frames (c : FaultCode) : (s.raise c).frames = s.frames := rfl
@[simp] theorem State.raise_outcome (c : FaultCode) : (s.raise c).outcome = s.outcome := rfl
@[simp] theorem State.raise_reads (c : FaultCode) : (s.raise c).reads = s.reads := rfl
@[simp] theorem State.raise_rdata (c : FaultCode) : (s.raise c).rdata = s.rdata := rfl
@[simp] theorem State.raise_clkReady (c : FaultCode) : (s.raise c).clkReady = s.clkReady := rfl
@[simp] theorem State.raise_schedule (c : FaultCode) : (s.raise c).schedule = s.schedule := rfl
@[simp] theorem State.raise_draws (c : FaultCode) : (s.raise c).draws = s.draws := rfl
@[simp] theorem State.raise_handle (c : FaultCode) : (s.raise c).handle = s.handle := rfl
@[simp] theorem State.raise_picks (c : FaultCode) : (s.raise c).picks = s.picks := rfl
@[simp] theorem State.raise_grant (c : FaultCode) : (s.raise c).grant = s.grant := rfl
@[simp] theorem State.raise_cfg (c : FaultCode) : (s.raise c).cfg = s.cfg := rfl
@[simp] theorem State.raise_syncBusy (c : FaultCode) : (s.raise c).syncBusy = s.syncBusy := rfl
@[simp] theorem State.raise_seqState (c : FaultCode) : (s.raise c).seqState = s.seqState := rfl

/-! refuse -/
@[simp] theorem State.refuse_ctrla (c : RefusedCode) : (s.refuse c).ctrla = s.ctrla := rfl
@[simp] theorem State.refuse_ctrlb (c : RefusedCode) : (s.refuse c).ctrlb = s.ctrlb := rfl
@[simp] theorem State.refuse_baud (c : RefusedCode) : (s.refuse c).baud = s.baud := rfl
@[simp] theorem State.refuse_addr (c : RefusedCode) : (s.refuse c).addr = s.addr := rfl
@[simp] theorem State.refuse_syncOp (c : RefusedCode) : (s.refuse c).syncOp = s.syncOp := rfl
@[simp] theorem State.refuse_enEff (c : RefusedCode) : (s.refuse c).enEff = s.enEff := rfl
@[simp] theorem State.refuse_modeLocked (c : RefusedCode) : (s.refuse c).modeLocked = s.modeLocked := rfl
@[simp] theorem State.refuse_cmdPending (c : RefusedCode) : (s.refuse c).cmdPending = s.cmdPending := rfl
@[simp] theorem State.refuse_fault (c : RefusedCode) : (s.refuse c).fault = s.fault := rfl
@[simp] theorem State.refuse_refused (c : RefusedCode) : (s.refuse c).refused = s.refused.or (some c) := rfl
@[simp] theorem State.refuse_hist (c : RefusedCode) : (s.refuse c).hist = s.hist := rfl
@[simp] theorem State.refuse_spiInited (c : RefusedCode) : (s.refuse c).spiInited = s.spiInited := rfl
@[simp] theorem State.refuse_frames (c : RefusedCode) : (s.refuse c).frames = s.frames := rfl
@[simp] theorem State.refuse_outcome (c : RefusedCode) : (s.refuse c).outcome = s.outcome := rfl
@[simp] theorem State.refuse_reads (c : RefusedCode) : (s.refuse c).reads = s.reads := rfl
@[simp] theorem State.refuse_rdata (c : RefusedCode) : (s.refuse c).rdata = s.rdata := rfl
@[simp] theorem State.refuse_clkReady (c : RefusedCode) : (s.refuse c).clkReady = s.clkReady := rfl
@[simp] theorem State.refuse_schedule (c : RefusedCode) : (s.refuse c).schedule = s.schedule := rfl
@[simp] theorem State.refuse_draws (c : RefusedCode) : (s.refuse c).draws = s.draws := rfl
@[simp] theorem State.refuse_handle (c : RefusedCode) : (s.refuse c).handle = s.handle := rfl
@[simp] theorem State.refuse_picks (c : RefusedCode) : (s.refuse c).picks = s.picks := rfl
@[simp] theorem State.refuse_grant (c : RefusedCode) : (s.refuse c).grant = s.grant := rfl
@[simp] theorem State.refuse_cfg (c : RefusedCode) : (s.refuse c).cfg = s.cfg := rfl
@[simp] theorem State.refuse_syncBusy (c : RefusedCode) : (s.refuse c).syncBusy = s.syncBusy := rfl
@[simp] theorem State.refuse_seqState (c : RefusedCode) : (s.refuse c).seqState = s.seqState := rfl

/-! answer -/
@[simp] theorem State.answer_ctrla (w : Word) : (s.answer w).ctrla = s.ctrla := rfl
@[simp] theorem State.answer_ctrlb (w : Word) : (s.answer w).ctrlb = s.ctrlb := rfl
@[simp] theorem State.answer_baud (w : Word) : (s.answer w).baud = s.baud := rfl
@[simp] theorem State.answer_addr (w : Word) : (s.answer w).addr = s.addr := rfl
@[simp] theorem State.answer_syncOp (w : Word) : (s.answer w).syncOp = s.syncOp := rfl
@[simp] theorem State.answer_enEff (w : Word) : (s.answer w).enEff = s.enEff := rfl
@[simp] theorem State.answer_modeLocked (w : Word) : (s.answer w).modeLocked = s.modeLocked := rfl
@[simp] theorem State.answer_cmdPending (w : Word) : (s.answer w).cmdPending = s.cmdPending := rfl
@[simp] theorem State.answer_fault (w : Word) : (s.answer w).fault = s.fault := rfl
@[simp] theorem State.answer_refused (w : Word) : (s.answer w).refused = s.refused := rfl
@[simp] theorem State.answer_hist (w : Word) : (s.answer w).hist = s.hist := rfl
@[simp] theorem State.answer_spiInited (w : Word) : (s.answer w).spiInited = s.spiInited := rfl
@[simp] theorem State.answer_frames (w : Word) : (s.answer w).frames = s.frames := rfl
@[simp] theorem State.answer_outcome (w : Word) : (s.answer w).outcome = s.outcome := rfl
@[simp] theorem State.answer_reads (w : Word) : (s.answer w).reads = s.reads ++ [w] := rfl
@[simp] theorem State.answer_rdata (w : Word) : (s.answer w).rdata = w := by
  simp [State.rdata, State.answer]
@[simp] theorem State.answer_clkReady (w : Word) : (s.answer w).clkReady = s.clkReady := rfl
@[simp] theorem State.answer_schedule (w : Word) : (s.answer w).schedule = s.schedule := rfl
@[simp] theorem State.answer_draws (w : Word) : (s.answer w).draws = s.draws := rfl
@[simp] theorem State.answer_handle (w : Word) : (s.answer w).handle = s.handle := rfl
@[simp] theorem State.answer_picks (w : Word) : (s.answer w).picks = s.picks := rfl
@[simp] theorem State.answer_grant (w : Word) : (s.answer w).grant = s.grant := rfl
@[simp] theorem State.answer_cfg (w : Word) : (s.answer w).cfg = s.cfg := rfl
@[simp] theorem State.answer_syncBusy (w : Word) : (s.answer w).syncBusy = s.syncBusy := rfl
@[simp] theorem State.answer_seqState (w : Word) : (s.answer w).seqState = s.seqState := rfl

/-! drawn -/
@[simp] theorem State.drawn_ctrla : (s.drawn).ctrla = s.ctrla := rfl
@[simp] theorem State.drawn_ctrlb : (s.drawn).ctrlb = s.ctrlb := rfl
@[simp] theorem State.drawn_baud : (s.drawn).baud = s.baud := rfl
@[simp] theorem State.drawn_addr : (s.drawn).addr = s.addr := rfl
@[simp] theorem State.drawn_syncOp : (s.drawn).syncOp = s.syncOp := rfl
@[simp] theorem State.drawn_enEff : (s.drawn).enEff = s.enEff := rfl
@[simp] theorem State.drawn_modeLocked : (s.drawn).modeLocked = s.modeLocked := rfl
@[simp] theorem State.drawn_cmdPending : (s.drawn).cmdPending = s.cmdPending := rfl
@[simp] theorem State.drawn_fault : (s.drawn).fault = s.fault := rfl
@[simp] theorem State.drawn_refused : (s.drawn).refused = s.refused := rfl
@[simp] theorem State.drawn_hist : (s.drawn).hist = s.hist := rfl
@[simp] theorem State.drawn_spiInited : (s.drawn).spiInited = s.spiInited := rfl
@[simp] theorem State.drawn_frames : (s.drawn).frames = s.frames := rfl
@[simp] theorem State.drawn_outcome : (s.drawn).outcome = s.outcome := rfl
@[simp] theorem State.drawn_reads : (s.drawn).reads = s.reads := rfl
@[simp] theorem State.drawn_rdata : (s.drawn).rdata = s.rdata := rfl
@[simp] theorem State.drawn_clkReady : (s.drawn).clkReady = s.clkReady := rfl
@[simp] theorem State.drawn_schedule : (s.drawn).schedule = s.schedule := rfl
@[simp] theorem State.drawn_draws : (s.drawn).draws = s.draws + 1 := rfl
@[simp] theorem State.drawn_handle : (s.drawn).handle = s.handle := rfl
@[simp] theorem State.drawn_picks : (s.drawn).picks = s.picks := rfl
@[simp] theorem State.drawn_grant : (s.drawn).grant = s.grant := rfl
@[simp] theorem State.drawn_cfg : (s.drawn).cfg = s.cfg := rfl
@[simp] theorem State.drawn_syncBusy : (s.drawn).syncBusy = s.syncBusy := rfl
@[simp] theorem State.drawn_seqState : (s.drawn).seqState = s.seqState := rfl

/-! picked -/
@[simp] theorem State.picked_ctrla : (s.picked).ctrla = s.ctrla := rfl
@[simp] theorem State.picked_ctrlb : (s.picked).ctrlb = s.ctrlb := rfl
@[simp] theorem State.picked_baud : (s.picked).baud = s.baud := rfl
@[simp] theorem State.picked_addr : (s.picked).addr = s.addr := rfl
@[simp] theorem State.picked_syncOp : (s.picked).syncOp = s.syncOp := rfl
@[simp] theorem State.picked_enEff : (s.picked).enEff = s.enEff := rfl
@[simp] theorem State.picked_modeLocked : (s.picked).modeLocked = s.modeLocked := rfl
@[simp] theorem State.picked_cmdPending : (s.picked).cmdPending = s.cmdPending := rfl
@[simp] theorem State.picked_fault : (s.picked).fault = s.fault := rfl
@[simp] theorem State.picked_refused : (s.picked).refused = s.refused := rfl
@[simp] theorem State.picked_hist : (s.picked).hist = s.hist := rfl
@[simp] theorem State.picked_spiInited : (s.picked).spiInited = s.spiInited := rfl
@[simp] theorem State.picked_frames : (s.picked).frames = s.frames := rfl
@[simp] theorem State.picked_outcome : (s.picked).outcome = s.outcome := rfl
@[simp] theorem State.picked_reads : (s.picked).reads = s.reads := rfl
@[simp] theorem State.picked_rdata : (s.picked).rdata = s.rdata := rfl
@[simp] theorem State.picked_clkReady : (s.picked).clkReady = s.clkReady := rfl
@[simp] theorem State.picked_schedule : (s.picked).schedule = s.schedule := rfl
@[simp] theorem State.picked_draws : (s.picked).draws = s.draws := rfl
@[simp] theorem State.picked_handle : (s.picked).handle = s.handle := rfl
@[simp] theorem State.picked_picks : (s.picked).picks = s.picks + 1 := rfl
@[simp] theorem State.picked_grant : (s.picked).grant = s.grant := rfl
@[simp] theorem State.picked_cfg : (s.picked).cfg = s.cfg := rfl
@[simp] theorem State.picked_syncBusy : (s.picked).syncBusy = s.syncBusy := rfl
@[simp] theorem State.picked_seqState : (s.picked).seqState = s.seqState := rfl

/-! offer -/
@[simp] theorem State.offer_ctrla (w : TxnWord) : (s.offer w).ctrla = s.ctrla := rfl
@[simp] theorem State.offer_ctrlb (w : TxnWord) : (s.offer w).ctrlb = s.ctrlb := rfl
@[simp] theorem State.offer_baud (w : TxnWord) : (s.offer w).baud = s.baud := rfl
@[simp] theorem State.offer_addr (w : TxnWord) : (s.offer w).addr = s.addr := rfl
@[simp] theorem State.offer_syncOp (w : TxnWord) : (s.offer w).syncOp = s.syncOp := rfl
@[simp] theorem State.offer_enEff (w : TxnWord) : (s.offer w).enEff = s.enEff := rfl
@[simp] theorem State.offer_modeLocked (w : TxnWord) : (s.offer w).modeLocked = s.modeLocked := rfl
@[simp] theorem State.offer_cmdPending (w : TxnWord) : (s.offer w).cmdPending = s.cmdPending := rfl
@[simp] theorem State.offer_fault (w : TxnWord) : (s.offer w).fault = s.fault := rfl
@[simp] theorem State.offer_refused (w : TxnWord) : (s.offer w).refused = s.refused := rfl
@[simp] theorem State.offer_hist (w : TxnWord) : (s.offer w).hist = s.hist := rfl
@[simp] theorem State.offer_spiInited (w : TxnWord) : (s.offer w).spiInited = s.spiInited := rfl
@[simp] theorem State.offer_frames (w : TxnWord) : (s.offer w).frames = s.frames := rfl
@[simp] theorem State.offer_outcome (w : TxnWord) : (s.offer w).outcome = s.outcome := rfl
@[simp] theorem State.offer_reads (w : TxnWord) : (s.offer w).reads = s.reads := rfl
@[simp] theorem State.offer_rdata (w : TxnWord) : (s.offer w).rdata = s.rdata := rfl
@[simp] theorem State.offer_clkReady (w : TxnWord) : (s.offer w).clkReady = s.clkReady := rfl
@[simp] theorem State.offer_schedule (w : TxnWord) : (s.offer w).schedule = .host w :: s.schedule := rfl
@[simp] theorem State.offer_draws (w : TxnWord) : (s.offer w).draws = s.draws := rfl
@[simp] theorem State.offer_handle (w : TxnWord) : (s.offer w).handle = s.handle := rfl
@[simp] theorem State.offer_picks (w : TxnWord) : (s.offer w).picks = s.picks := rfl
@[simp] theorem State.offer_grant (w : TxnWord) : (s.offer w).grant = s.grant := rfl
@[simp] theorem State.offer_cfg (w : TxnWord) : (s.offer w).cfg = s.cfg := rfl
@[simp] theorem State.offer_syncBusy (w : TxnWord) : (s.offer w).syncBusy = s.syncBusy := rfl
@[simp] theorem State.offer_seqState (w : TxnWord) : (s.offer w).seqState = s.seqState := rfl

/-! endRequest -/
@[simp] theorem State.endRequest_ctrla (o : RequestOutcome) : (s.endRequest o).ctrla = s.ctrla := rfl
@[simp] theorem State.endRequest_ctrlb (o : RequestOutcome) : (s.endRequest o).ctrlb = s.ctrlb := rfl
@[simp] theorem State.endRequest_baud (o : RequestOutcome) : (s.endRequest o).baud = s.baud := rfl
@[simp] theorem State.endRequest_addr (o : RequestOutcome) : (s.endRequest o).addr = s.addr := rfl
@[simp] theorem State.endRequest_syncOp (o : RequestOutcome) : (s.endRequest o).syncOp = s.syncOp := rfl
@[simp] theorem State.endRequest_enEff (o : RequestOutcome) : (s.endRequest o).enEff = s.enEff := rfl
@[simp] theorem State.endRequest_modeLocked (o : RequestOutcome) : (s.endRequest o).modeLocked = s.modeLocked := rfl
@[simp] theorem State.endRequest_cmdPending (o : RequestOutcome) : (s.endRequest o).cmdPending = s.cmdPending := rfl
@[simp] theorem State.endRequest_fault (o : RequestOutcome) : (s.endRequest o).fault = s.fault := rfl
@[simp] theorem State.endRequest_refused (o : RequestOutcome) : (s.endRequest o).refused = s.refused := rfl
@[simp] theorem State.endRequest_hist (o : RequestOutcome) : (s.endRequest o).hist = s.hist := rfl
@[simp] theorem State.endRequest_spiInited (o : RequestOutcome) : (s.endRequest o).spiInited = s.spiInited := rfl
@[simp] theorem State.endRequest_frames (o : RequestOutcome) : (s.endRequest o).frames = dropRequest s.frames := rfl
@[simp] theorem State.endRequest_outcome (o : RequestOutcome) : (s.endRequest o).outcome = some o := rfl
@[simp] theorem State.endRequest_reads (o : RequestOutcome) : (s.endRequest o).reads = s.reads := rfl
@[simp] theorem State.endRequest_rdata (o : RequestOutcome) : (s.endRequest o).rdata = s.rdata := rfl
@[simp] theorem State.endRequest_clkReady (o : RequestOutcome) : (s.endRequest o).clkReady = s.clkReady := rfl
@[simp] theorem State.endRequest_schedule (o : RequestOutcome) : (s.endRequest o).schedule = s.schedule := rfl
@[simp] theorem State.endRequest_draws (o : RequestOutcome) : (s.endRequest o).draws = s.draws := rfl
@[simp] theorem State.endRequest_handle (o : RequestOutcome) : (s.endRequest o).handle = s.handle := rfl
@[simp] theorem State.endRequest_picks (o : RequestOutcome) : (s.endRequest o).picks = s.picks := rfl
@[simp] theorem State.endRequest_grant (o : RequestOutcome) : (s.endRequest o).grant = s.grant := rfl
@[simp] theorem State.endRequest_cfg (o : RequestOutcome) : (s.endRequest o).cfg = s.cfg := rfl
@[simp] theorem State.endRequest_syncBusy (o : RequestOutcome) : (s.endRequest o).syncBusy = s.syncBusy := rfl
@[simp] theorem State.endRequest_seqState (o : RequestOutcome) : (s.endRequest o).seqState = s.seqState := rfl

/-! goOn -/
@[simp] theorem State.goOn_ctrla (fs : List Frame) : (s.goOn fs).ctrla = s.ctrla := by unfold State.goOn; split <;> rfl
@[simp] theorem State.goOn_ctrlb (fs : List Frame) : (s.goOn fs).ctrlb = s.ctrlb := by unfold State.goOn; split <;> rfl
@[simp] theorem State.goOn_baud (fs : List Frame) : (s.goOn fs).baud = s.baud := by unfold State.goOn; split <;> rfl
@[simp] theorem State.goOn_addr (fs : List Frame) : (s.goOn fs).addr = s.addr := by unfold State.goOn; split <;> rfl
@[simp] theorem State.goOn_syncOp (fs : List Frame) : (s.goOn fs).syncOp = s.syncOp := by unfold State.goOn; split <;> rfl
@[simp] theorem State.goOn_enEff (fs : List Frame) : (s.goOn fs).enEff = s.enEff := by unfold State.goOn; split <;> rfl
@[simp] theorem State.goOn_modeLocked (fs : List Frame) : (s.goOn fs).modeLocked = s.modeLocked := by unfold State.goOn; split <;> rfl
@[simp] theorem State.goOn_cmdPending (fs : List Frame) : (s.goOn fs).cmdPending = s.cmdPending := by unfold State.goOn; split <;> rfl
@[simp] theorem State.goOn_fault (fs : List Frame) : (s.goOn fs).fault = s.fault := by unfold State.goOn; split <;> rfl
@[simp] theorem State.goOn_refused (fs : List Frame) : (s.goOn fs).refused = s.refused := by unfold State.goOn; split <;> rfl
@[simp] theorem State.goOn_hist (fs : List Frame) : (s.goOn fs).hist = s.hist := by unfold State.goOn; split <;> rfl
@[simp] theorem State.goOn_spiInited (fs : List Frame) : (s.goOn fs).spiInited = s.spiInited := by unfold State.goOn; split <;> rfl
@[simp] theorem State.goOn_reads (fs : List Frame) : (s.goOn fs).reads = s.reads := by unfold State.goOn; split <;> rfl
@[simp] theorem State.goOn_rdata (fs : List Frame) : (s.goOn fs).rdata = s.rdata := by unfold State.goOn; split <;> rfl
@[simp] theorem State.goOn_clkReady (fs : List Frame) : (s.goOn fs).clkReady = s.clkReady := by unfold State.goOn; split <;> rfl
@[simp] theorem State.goOn_schedule (fs : List Frame) : (s.goOn fs).schedule = s.schedule := by unfold State.goOn; split <;> rfl
@[simp] theorem State.goOn_draws (fs : List Frame) : (s.goOn fs).draws = s.draws := by unfold State.goOn; split <;> rfl
@[simp] theorem State.goOn_handle (fs : List Frame) : (s.goOn fs).handle = s.handle := by unfold State.goOn; split <;> rfl
@[simp] theorem State.goOn_picks (fs : List Frame) : (s.goOn fs).picks = s.picks := by unfold State.goOn; split <;> rfl

end

end Sys2Proof.Machine
end

