-- ==== Sys2Proof/Laws/Ops.lean ====
section
/-! SUPPORT. One lemma per shared operation: when it answers a next state, and which. -/

namespace Sys2Proof.Machine

/-- The guard lets a step of a live state through (R28, R172). -/
theorem whileLive_live {s : State} (h : s.Live) (k : Result) : whileLive s k = k := by
  simp [whileLive, h.clk, h.noFault, h.noRefusal]

/-- A step that answers a next state started in a live one (R28, R172). -/
theorem whileLive_next {s t : State} {k : Result} (h : whileLive s k = .next t) : s.Live ∧ k = .next t := by
  unfold whileLive at h
  split at h
  · split at h
    · cases h
    · cases h
    · exact ⟨⟨‹_›, ‹_›, ‹_›⟩, h⟩
  · cases h

/-- The mark `fault` stops every step (R28). -/
theorem whileLive_fault {s : State} {c : FaultCode} (hc : s.clkReady = true) (h : s.fault = some c) (k : Result) :
    whileLive s k = .fault (.marked c) := by
  simp [whileLive, hc, h]

/-- The mark `refused` stops every step (R28). -/
theorem whileLive_refused {s : State} {c : RefusedCode} (hc : s.clkReady = true) (hf : s.fault = none)
    (h : s.refused = some c) (k : Result) : whileLive s k = .refused (.marked c) := by
  simp [whileLive, hc, hf, h]

/-- Without `clk_ready` every step is refused (R172). -/
theorem whileLive_noClk {s : State} (hc : s.clkReady = false) (k : Result) :
    whileLive s k = .refused .clkNotReady := by
  simp [whileLive, hc]

/-- With nothing pending the sync check lets the write through (R70). -/
theorem syncCheck_idle {s : State} (h : s.syncOp = .none) (k : Result) : syncCheck s k = k := by
  simp [syncCheck, h]

/-- With a synchronisation pending the write is `Fault(F_SYNC)` (R70). -/
theorem syncCheck_busy {s : State} (h : s.syncOp ≠ .none) (k : Result) :
    syncCheck s k = .next (s.raise .fSync) := by
  simp [syncCheck, h]

/-- A checked write answers the state of the write, or the state with the mark (R70). -/
theorem syncCheck_next {s t : State} {k : Result} (h : syncCheck s k = .next t) :
    (s.syncOp = .none ∧ k = .next t) ∨ (s.syncOp ≠ .none ∧ t = s.raise .fSync) := by
  unfold syncCheck at h
  split at h
  · exact .inl ⟨‹_›, h⟩
  · cases h; exact .inr ⟨‹_›, rfl⟩

/-- A forwarded read changes the history alone, and only while an engine is granted (R85). -/
theorem forwardRead_eq (o : BitVec 5) (s : State) :
    forwardRead o s = { s with hist := s.hist ++ if s.grant = .none then [] else [.engRead s.grant o] } := by
  unfold forwardRead; split
  · simp
  · rfl

/-- A forwarded write changes the history alone, and only while an engine is granted (R89). -/
theorem forwardWrite_eq (o : BitVec 5) (d : Word) (s : State) :
    forwardWrite o d s = { s with hist := s.hist ++ if s.grant = .none then [] else [.engWrite s.grant o d] } := by
  unfold forwardWrite; split
  · simp
  · rfl

/-- What an accepted CTRLA write does, in the five cases of R71. -/
theorem writeCtrla_cases (d : Word) (s : State) :
    (wSwrst d = true ∧ writeCtrla d s = startReset s) ∨
    (wSwrst d = false ∧ s.ctrla.enable = true ∧ wEnable d = true ∧ writeCtrla d s = s) ∨
    (wSwrst d = false ∧ s.ctrla.enable = true ∧ wEnable d = false ∧ writeCtrla d s = startDisable s) ∨
    (wSwrst d = false ∧ s.ctrla.enable = false ∧ wEnable d = true ∧ pers (modeAfter d s) = .none ∧
      writeCtrla d s = s.refuse .enableNone) ∨
    (wSwrst d = false ∧ s.ctrla.enable = false ∧ wEnable d = true ∧ pers (modeAfter d s) ≠ .none ∧
      writeCtrla d s = startEnable (configureA d s)) ∨
    (wSwrst d = false ∧ s.ctrla.enable = false ∧ wEnable d = false ∧ writeCtrla d s = configureA d s) := by
  cases h1 : wSwrst d <;> cases h2 : s.ctrla.enable <;> cases h3 : wEnable d <;>
    by_cases h4 : pers (modeAfter d s) = .none <;> simp [writeCtrla, h1, h2, h3, h4]

/-- What latching a command does, in the cases of R72. -/
theorem latchCommand_cases (code : BitVec 2) (s : State) :
    latchCommand code s = s ∨
    (∃ role, roleOf s.grant = some role ∧ code ≠ 0#2 ∧
      latchCommand code s = { s with cmdPending := some (role, code), syncOp := .cmd }) := by
  unfold latchCommand
  split
  · rename_i role hr
    by_cases h : code = 0#2
    · simp [h]
    · exact .inr ⟨role, hr, h, by simp [h]⟩
  · exact .inl rfl

end Sys2Proof.Machine
end

