-- ==== Sys2Proof/Laws/Exec.lean ====
section
/-! SUPPORT. What a transaction can do, whichever it is: it answers a next state exactly from a live state, and it never
touches the sequencer, the schedule, the handle or the clock premise. -/

namespace Sys2Proof.Machine

/-- Every transaction completes from a live state (R62, R80 to R91, R150: what faults or is refused sets a mark). -/
theorem exec_completes (i : Instr) {s : State} (h : s.Live) : ∃ t, exec i s = .next t := by
  cases i <;>
    simp only [exec, execRdCtrla, execRdCtrlb, execRdBaud, execRdAddr, execRdStatus, execRdEng0, execRdEng1,
      execRdEng2, execWrCtrla, execWrCtrlb, execWrBaud, execWrAddr, execWrStatus, execWrEng0, execWrEng1,
      execWrEng2, engineRead, engineWrite, whileLive_live h, syncCheck]
  all_goals first | exact ⟨_, rfl⟩ | (split <;> exact ⟨_, rfl⟩)

/-- A transaction that answers a next state started in a live one (R28, R172). -/
theorem exec_live {i : Instr} {s t : State} (h : exec i s = .next t) : s.Live := by
  cases i <;> exact (whileLive_next h).1

/-- A transaction is stopped by a mark, a missing clock, or nothing (R28, R172). -/
theorem exec_stop {i : Instr} {s : State} (h : ¬ s.Live) :
    (∃ c, exec i s = .fault (.marked c)) ∨ (∃ c, exec i s = .refused (.marked c)) ∨
      exec i s = .refused .clkNotReady := by
  cases hc : s.clkReady with
  | false => right; right; cases i <;> exact whileLive_noClk hc _
  | true =>
    cases hf : s.fault with
    | some c => left; exact ⟨c, by cases i <;> exact whileLive_fault hc hf _⟩
    | none =>
      cases hr : s.refused with
      | some c => right; left; exact ⟨c, by cases i <;> exact whileLive_refused hc hf hr _⟩
      | none => exact absurd ⟨hc, hf, hr⟩ h

/-- The fields no transaction touches (R62: the block's own registers, hidden state, marks and history are all a
transaction can reach). -/
structure SeqSame (s t : State) : Prop where
  spiInited : t.spiInited = s.spiInited
  frames : t.frames = s.frames
  outcome : t.outcome = s.outcome
  clkReady : t.clkReady = s.clkReady
  schedule : t.schedule = s.schedule
  handle : t.handle = s.handle
  picks : t.picks = s.picks

theorem writeCtrla_seqSame (d : Word) (s : State) : SeqSame s (writeCtrla d s) := by
  rcases writeCtrla_cases d s with ⟨_, h⟩ | ⟨_, _, _, h⟩ | ⟨_, _, _, h⟩ | ⟨_, _, _, _, h⟩ | ⟨_, _, _, _, h⟩ |
    ⟨_, _, _, h⟩ <;> rw [h] <;> exact ⟨rfl, rfl, rfl, rfl, rfl, rfl, rfl⟩

theorem latchCommand_seqSame (code : BitVec 2) (s : State) : SeqSame s (latchCommand code s) := by
  rcases latchCommand_cases code s with h | ⟨_, _, _, h⟩ <;> rw [h] <;> exact ⟨rfl, rfl, rfl, rfl, rfl, rfl, rfl⟩

theorem configureB_seqSame (d : Word) (s : State) : SeqSame s (configureB d s) := by
  unfold configureB; split <;> exact ⟨rfl, rfl, rfl, rfl, rfl, rfl, rfl⟩

theorem SeqSame.trans {s t u : State} (h : SeqSame s t) (k : SeqSame t u) : SeqSame s u :=
  ⟨k.spiInited.trans h.spiInited, k.frames.trans h.frames, k.outcome.trans h.outcome,
    k.clkReady.trans h.clkReady, k.schedule.trans h.schedule,
    k.handle.trans h.handle, k.picks.trans h.picks⟩

/-- No transaction touches the sequencer, the schedule, the handle or the clock premise. -/
theorem exec_seqSame {i : Instr} {s t : State} (h : exec i s = .next t) : SeqSame s t := by
  cases i with
  | wrCtrla d =>
    rcases syncCheck_next (whileLive_next h).2 with ⟨_, k⟩ | ⟨_, rfl⟩
    · cases k; exact writeCtrla_seqSame d s
    · exact ⟨rfl, rfl, rfl, rfl, rfl, rfl, rfl⟩
  | wrCtrlb d =>
    rcases syncCheck_next (whileLive_next h).2 with ⟨_, k⟩ | ⟨_, rfl⟩
    · cases k; exact (configureB_seqSame d s).trans (latchCommand_seqSame _ _)
    · exact ⟨rfl, rfl, rfl, rfl, rfl, rfl, rfl⟩
  | wrBaud d =>
    rcases syncCheck_next (whileLive_next h).2 with ⟨_, k⟩ | ⟨_, rfl⟩
    · cases k; split <;> exact ⟨rfl, rfl, rfl, rfl, rfl, rfl, rfl⟩
    · exact ⟨rfl, rfl, rfl, rfl, rfl, rfl, rfl⟩
  | wrAddr d =>
    rcases syncCheck_next (whileLive_next h).2 with ⟨_, k⟩ | ⟨_, rfl⟩
    · cases k; split <;> exact ⟨rfl, rfl, rfl, rfl, rfl, rfl, rfl⟩
    · exact ⟨rfl, rfl, rfl, rfl, rfl, rfl, rfl⟩
  | _ =>
    have k := (whileLive_next h).2
    cases k
    first
      | exact ⟨rfl, rfl, rfl, rfl, rfl, rfl, rfl⟩
      | (rw [forwardRead_eq]; exact ⟨rfl, rfl, rfl, rfl, rfl, rfl, rfl⟩)
      | (rw [forwardWrite_eq]; exact ⟨rfl, rfl, rfl, rfl, rfl, rfl, rfl⟩)

end Sys2Proof.Machine
end

