-- ==== Sys2Proof/Laws/Step.lean ====
section
/-! SUPPORT. Everything a step can do to the block (R9): a transaction of R62, a SYNC_COMPLETE, or nothing but the
sequencer's, the schedule's and the marks' bookkeeping. Invariants of the block follow from these three cases. -/

namespace Sys2Proof.Machine

/-- Two states with the same registers, hidden state and history (R22 to R27, R32). -/
structure BlockSame (s t : State) : Prop where
  ctrla : t.ctrla = s.ctrla
  ctrlb : t.ctrlb = s.ctrlb
  baud : t.baud = s.baud
  addr : t.addr = s.addr
  syncOp : t.syncOp = s.syncOp
  enEff : t.enEff = s.enEff
  modeLocked : t.modeLocked = s.modeLocked
  cmdPending : t.cmdPending = s.cmdPending
  hist : t.hist = s.hist

theorem BlockSame.refl (s : State) : BlockSame s s := ⟨rfl, rfl, rfl, rfl, rfl, rfl, rfl, rfl, rfl⟩

theorem BlockSame.symm {s t : State} (h : BlockSame s t) : BlockSame t s :=
  ⟨h.1.symm, h.2.symm, h.3.symm, h.4.symm, h.5.symm, h.6.symm, h.7.symm, h.8.symm, h.9.symm⟩

theorem BlockSame.trans {s t u : State} (h : BlockSame s t) (k : BlockSame t u) : BlockSame s u :=
  ⟨k.1.trans h.1, k.2.trans h.2, k.3.trans h.3, k.4.trans h.4, k.5.trans h.5, k.6.trans h.6, k.7.trans h.7,
    k.8.trans h.8, k.9.trans h.9⟩

theorem BlockSame.grant {s t : State} (h : BlockSame s t) : t.grant = s.grant := by
  simp [State.grant, h.enEff, h.ctrla]

theorem goOn_blockSame (fs : List Frame) (s : State) : BlockSame s (s.goOn fs) := by
  constructor <;> simp

theorem endRequest_blockSame (o : RequestOutcome) (s : State) : BlockSame s (s.endRequest o) := by
  constructor <;> simp

theorem afterLine_blockSame (fs : List Frame) (s : State) : BlockSame s (s.afterLine fs) := by
  unfold State.afterLine
  split
  · exact endRequest_blockSame _ s
  · exact endRequest_blockSame _ s
  · exact goOn_blockSame fs s

theorem pollAgain_blockSame (l : Option Nat) (f : Frame) (rest : List Frame) (s : State) :
    BlockSame s (pollAgain l f rest s) := by
  unfold pollAgain
  split
  · split
    · exact endRequest_blockSame _ s
    · exact ⟨rfl, rfl, rfl, rfl, rfl, rfl, rfl, rfl, rfl⟩
  · exact ⟨rfl, rfl, rfl, rfl, rfl, rfl, rfl, rfl, rfl⟩

/-- What a step did to the block, from `s` to `t`. -/
inductive BlockStep (s t : State) : Prop where
  | same (h : BlockSame s t)
  | txn (i : Instr) (u v : State) (hu : BlockSame s u) (h : exec i u = .next v) (hv : BlockSame v t)
  | sync (u : State) (hu : BlockSame s u) (h : BlockSame (syncComplete u) t)

theorem BlockStep.from_same {s u t : State} (h : BlockSame s u) (k : BlockStep u t) : BlockStep s t := by
  cases k with
  | same k => exact .same (h.trans k)
  | txn i v w hv hw ht => exact .txn i v w (h.trans hv) hw ht
  | sync v hv ht => exact .sync v (h.trans hv) ht

theorem hostStep_block {w : TxnWord} {s t : State} (h : hostStep w s = .next t) : BlockStep s t := by
  unfold hostStep at h
  split at h
  · exact .txn _ s t (.refl s) h (.refl t)
  · cases (whileLive_next h).2; exact .same ⟨rfl, rfl, rfl, rfl, rfl, rfl, rfl, rfl, rfl⟩

theorem syncStep_block {s t : State} (h : syncStep s = .next t) : BlockStep s t := by
  cases (whileLive_next h).2; exact .sync s (.refl s) (.refl _)

theorem requestStep_block {r : Request} {s t : State} (h : requestStep r s = .next t) : BlockStep s t := by
  cases (whileLive_next h).2; exact .same ⟨rfl, rfl, rfl, rfl, rfl, rfl, rfl, rfl, rfl⟩

theorem runLine_block {ln : Line} {f : Frame} {rest : List Frame} {s t : State}
    (h : runLine ln f rest s = .next t) : BlockStep s t := by
  cases ln with
  | txn i =>
    simp only [runLine] at h
    split at h <;> cases h
    exact .txn i s _ (.refl s) ‹_› (afterLine_blockSame _ _)
  | read x i =>
    simp only [runLine] at h
    split at h <;> cases h
    exact .txn i s _ (.refl s) ‹_› (afterLine_blockSame _ _)
  | skipIf c n => cases h; exact .same (goOn_blockSame _ s)
  | repollIf c =>
    cases h
    cases c
    · exact .same (goOn_blockSame _ s)
    · exact .same (pollAgain_blockSame _ _ _ s)
  | call r => cases h; exact .same ⟨rfl, rfl, rfl, rfl, rfl, rfl, rfl, rfl, rfl⟩
  | setSpiInited v =>
    cases h
    exact .same (BlockSame.trans (t := { s with spiInited := v }) ⟨rfl, rfl, rfl, rfl, rfl, rfl, rfl, rfl, rfl⟩ (goOn_blockSame _ _))
  | refuseIf c code =>
    cases h
    cases c
    · exact .same (goOn_blockSame _ s)
    · exact .same (BlockSame.trans (t := s.refuse code) ⟨rfl, rfl, rfl, rfl, rfl, rfl, rfl, rfl, rfl⟩ (endRequest_blockSame _ _))
  | result v => cases h; exact .same (goOn_blockSame _ s)

theorem seqStep_block {s t : State} (h : seqStep s = .next t) : BlockStep s t := by
  have k := (whileLive_next h).2
  split at k
  · cases k; exact .same (.refl s)
  · split at k
    · exact runLine_block k
    · cases k; exact .same (goOn_blockSame _ s)

theorem runTurn_block {u : Turn} {s t : State} (h : runTurn u s = .next t) : BlockStep s t := by
  cases u with
  | host w => exact hostStep_block h
  | sync => exact syncStep_block h
  | request r => exact requestStep_block h
  | seq => exact seqStep_block h

theorem freeTurn_block {s t : State} (h : freeTurn s = .next t) : BlockStep s t := by
  have d : BlockSame s s.picked := by constructor <;> simp
  unfold freeTurn at h
  split at h
  · exact syncStep_block h
  · split at h
    · exact (syncStep_block h).from_same d
    · exact (seqStep_block h).from_same d
  · exact seqStep_block h
  · cases (whileLive_next h).2; exact .same (.refl s)

/-- Everything a step can do to the block. -/
theorem step_block {s t : State} (h : step s = .next t) : BlockStep s t := by
  unfold step takeTurn at h
  split at h
  · rename_i u rest _
    exact BlockStep.from_same (u := { s with schedule := rest }) ⟨rfl, rfl, rfl, rfl, rfl, rfl, rfl, rfl, rfl⟩ (runTurn_block h)
  · exact freeTurn_block h

end Sys2Proof.Machine
end

