-- ==== Sys2Proof/Laws/Fairness.lean ====
section
/-! SUPPORT. Every step completes from a live state and keeps what belongs to the surroundings; under the fairness
premise of R100 a pending synchronisation is completed, whatever turns are given first (R9, R100, R159). -/

namespace Sys2Proof.Machine

/-- The fields no agent's step touches: the clock premise, the turns still given, the instance and the count of free
choices (R10, R35). -/
structure RunSame (s t : State) : Prop where
  clkReady : t.clkReady = s.clkReady
  schedule : t.schedule = s.schedule
  handle : t.handle = s.handle
  picks : t.picks = s.picks

theorem RunSame.trans {s t u : State} (h : RunSame s t) (k : RunSame t u) : RunSame s u :=
  ⟨k.1.trans h.1, k.2.trans h.2, k.3.trans h.3, k.4.trans h.4⟩

theorem SeqSame.run {s t : State} (h : SeqSame s t) : RunSame s t := ⟨h.clkReady, h.schedule, h.handle, h.picks⟩

theorem goOn_runSame (fs : List Frame) (s : State) : RunSame s (s.goOn fs) := by constructor <;> simp

theorem endRequest_runSame (o : RequestOutcome) (s : State) : RunSame s (s.endRequest o) := by constructor <;> simp

theorem afterLine_runSame (fs : List Frame) (s : State) : RunSame s (s.afterLine fs) := by
  unfold State.afterLine
  split
  · exact endRequest_runSame _ s
  · exact endRequest_runSame _ s
  · exact goOn_runSame fs s

theorem pollAgain_runSame (l : Option Nat) (f : Frame) (rest : List Frame) (s : State) :
    RunSame s (pollAgain l f rest s) := by
  unfold pollAgain
  split
  · split
    · exact endRequest_runSame _ s
    · exact ⟨rfl, rfl, rfl, rfl⟩
  · exact ⟨rfl, rfl, rfl, rfl⟩

theorem syncComplete_runSame (s : State) : RunSame s (syncComplete s) := by
  unfold syncComplete completeReset completeEnable completeDisable completeCmd
  split
  · exact ⟨rfl, rfl, rfl, rfl⟩
  · split <;> exact ⟨rfl, rfl, rfl, rfl⟩
  · exact ⟨rfl, rfl, rfl, rfl⟩
  · exact ⟨rfl, rfl, rfl, rfl⟩
  · split <;> exact ⟨rfl, rfl, rfl, rfl⟩

/-- A line completes from a live state. -/
theorem runLine_runs (ln : Line) (f : Frame) (rest : List Frame) {s : State} (h : s.Live) :
    ∃ t, runLine ln f rest s = .next t ∧ RunSame s t := by
  cases ln with
  | txn i =>
    obtain ⟨t, e⟩ := exec_completes i h
    exact ⟨_, by simp only [runLine, e]; rfl, (exec_seqSame e).run.trans (afterLine_runSame _ _)⟩
  | read x i =>
    obtain ⟨t, e⟩ := exec_completes i h
    exact ⟨_, by simp only [runLine, e]; rfl, (exec_seqSame e).run.trans (afterLine_runSame _ _)⟩
  | skipIf c n => exact ⟨_, rfl, goOn_runSame _ s⟩
  | repollIf c =>
    cases c
    · exact ⟨_, rfl, goOn_runSame _ s⟩
    · exact ⟨_, rfl, pollAgain_runSame _ _ _ s⟩
  | call r => exact ⟨_, rfl, rfl, rfl, rfl, rfl⟩
  | setSpiInited v => exact ⟨_, rfl, RunSame.trans (t := { s with spiInited := v }) ⟨rfl, rfl, rfl, rfl⟩ (goOn_runSame _ _)⟩
  | refuseIf c code =>
    cases c
    · exact ⟨_, rfl, goOn_runSame _ s⟩
    · exact ⟨_, rfl, RunSame.trans (t := s.refuse code) ⟨rfl, rfl, rfl, rfl⟩ (endRequest_runSame _ _)⟩
  | result v => exact ⟨_, rfl, goOn_runSame _ s⟩

/-- A turn of SEQ completes from a live state. -/
theorem seqStep_runs {s : State} (h : s.Live) : ∃ t, seqStep s = .next t ∧ RunSame s t := by
  unfold seqStep
  rw [whileLive_live h]
  split
  · exact ⟨s, rfl, rfl, rfl, rfl, rfl⟩
  · split
    · exact runLine_runs _ _ _ h
    · exact ⟨_, rfl, goOn_runSame _ s⟩

/-- A turn of any agent completes from a live state (R9). -/
theorem runTurn_runs (u : Turn) {s : State} (h : s.Live) : ∃ t, runTurn u s = .next t ∧ RunSame s t := by
  cases u with
  | host w =>
    simp only [runTurn, hostStep]
    split
    · obtain ⟨t, e⟩ := exec_completes _ h
      exact ⟨t, e, (exec_seqSame e).run⟩
    · exact ⟨_, whileLive_live h _, rfl, rfl, rfl, rfl⟩
  | sync => exact ⟨_, whileLive_live h _, syncComplete_runSame s⟩
  | request r => exact ⟨_, whileLive_live h _, rfl, rfl, rfl, rfl⟩
  | seq => exact seqStep_runs h

/-- What `picked` keeps of a live state. -/
theorem State.Live.picked {s : State} (h : s.Live) : s.picked.Live := ⟨h.clk, h.noFault, h.noRefusal⟩

/-- A step with no turn given completes from a live state; a free choice is counted exactly where SYNC and SEQ both have
a step (R10, R100). -/
theorem freeTurn_runs {s : State} (h : s.Live) : ∃ t, freeTurn s = .next t ∧ t.clkReady = s.clkReady ∧
    t.schedule = s.schedule ∧ t.handle = s.handle ∧
    t.picks = s.picks + (if s.syncOp ≠ .none ∧ s.frames ≠ [] then 1 else 0) := by
  unfold freeTurn
  split
  · rename_i _ hf
    obtain ⟨t, e, r⟩ := runTurn_runs .sync h
    exact ⟨t, e, r.clkReady, r.schedule, r.handle, by simpa [hf] using r.picks⟩
  · rename_i hb hf
    have hp : s.syncOp ≠ .none := by simpa [State.syncBusy] using hb
    split
    · obtain ⟨t, e, r⟩ := runTurn_runs .sync h.picked
      exact ⟨t, e, r.clkReady, r.schedule, r.handle, by simpa [hf, hp] using r.picks⟩
    · obtain ⟨t, e, r⟩ := seqStep_runs h.picked
      exact ⟨t, e, r.clkReady, r.schedule, r.handle, by simpa [hf, hp] using r.picks⟩
  · rename_i hb _
    have hp : s.syncOp = .none := by simpa [State.syncBusy] using hb
    obtain ⟨t, e, r⟩ := seqStep_runs h
    exact ⟨t, e, r.clkReady, r.schedule, r.handle, by simpa [hp] using r.picks⟩
  · rename_i hf
    exact ⟨s, whileLive_live h _, rfl, rfl, rfl, by simp [hf]⟩

/-- Every step completes from a live state, keeps the clock premise and the instance, and uses up the turn it ran. -/
theorem step_runs {s : State} (h : s.Live) : ∃ t, step s = .next t ∧ t.clkReady = s.clkReady ∧ t.handle = s.handle ∧
    t.schedule = s.schedule.tail := by
  unfold step takeTurn
  split
  · rename_i u rest e
    obtain ⟨t, e', r⟩ := runTurn_runs u (s := { s with schedule := rest }) ⟨h.clk, h.noFault, h.noRefusal⟩
    exact ⟨t, e', r.clkReady, r.handle, by rw [r.schedule, e]; rfl⟩
  · rename_i e
    obtain ⟨t, e', hc, hs, hh, _⟩ := freeTurn_runs h
    exact ⟨t, e', hc, hh, by rw [hs, e]; rfl⟩

/-- After SYNC_COMPLETE nothing is pending (R100). -/
theorem syncComplete_syncOp (s : State) : (syncComplete s).syncOp = .none := by
  unfold syncComplete
  split
  · assumption
  all_goals rfl

/-- A turn of SYNC leaves nothing pending (R100). -/
theorem syncStep_settles {s : State} (h : s.Live) : ∃ t, syncStep s = .next t ∧ t.syncOp = .none :=
  ⟨_, whileLive_live h _, syncComplete_syncOp s⟩

/-- From here on a run completes the pending synchronisation, or sets a mark, after which no step has a meaning (R28). -/
def Settles (s : State) : Prop :=
  ∃ k t, Host.Core.run Sys2Proof.core k s = .next t ∧ (t.syncOp = .none ∨ t.marked = true)

/-- A state whose successor settles settles. -/
theorem Settles.before {s t : State} (e : step s = .next t) (h : Settles t) : Settles s := by
  obtain ⟨k, u, r, d⟩ := h
  exact ⟨k + 1, u, by simp only [Host.Core.run, core]; rw [e]; exact r, d⟩

/-- A state with nothing pending, or with a mark, has settled. -/
theorem Settles.now {s : State} (h : s.syncOp = .none ∨ s.marked = true) : Settles s := ⟨0, s, rfl, h⟩

/-- A state with the clocks running and no mark is live. -/
theorem live_of {s : State} (hc : s.clkReady = true) (hm : ¬ s.marked = true) : s.Live := by
  simp only [State.marked, Bool.or_eq_true, not_or, Option.isSome_iff_ne_none, ne_eq, not_not] at hm
  exact ⟨hc, hm.1, hm.2⟩

/-- A state settles if every live state its step leads to with something still pending does. -/
theorem Settles.of_step {s : State} (h : s.Live)
    (next : ∀ t, step s = .next t → t.Live → t.syncOp ≠ .none → Settles t) : Settles s := by
  obtain ⟨t, e, hc, _, _⟩ := step_runs h
  by_cases d : t.syncOp = .none ∨ t.marked = true
  · exact .before e (.now d)
  · rw [not_or] at d
    exact .before e (next t e (live_of (hc.trans h.clk) d.2) d.1)

/-- With no turn given, a choice of SYNC that is to come completes what is pending. -/
theorem settles_free {handle m : Nat} (hm : Config.syncFirst handle m = true) : ∀ (d : Nat) (s : State), s.Live →
    s.syncOp ≠ .none → s.schedule = [] → s.handle = handle → s.picks + d = m → Settles s := by
  intro d
  induction d with
  | zero =>
    intro s h hp hs hh hd
    have hb : s.syncBusy = true := by simp [State.syncBusy, hp]
    have e : ∃ t, step s = .next t ∧ t.syncOp = .none := by
      have : s.picks = m := hd
      simp only [step, takeTurn, hs, freeTurn, hb]
      split
      · exact syncStep_settles h
      · rw [if_pos (by rw [hh, this, hm])]; exact syncStep_settles h.picked
      · contradiction
      · contradiction
    obtain ⟨t, e, hn⟩ := e
    exact .before e (.now (.inl hn))
  | succ d ih =>
    intro s h hp hs hh hd
    refine .of_step h fun t e ht hpt => ?_
    have ef : freeTurn s = .next t := by simpa only [step, takeTurn, hs] using e
    obtain ⟨u, e', _, hsu, hhu, hpu⟩ := freeTurn_runs h
    cases ef.symm.trans e'
    cases hf : s.frames with
    | nil =>
      have : syncStep s = .next t := by
        simpa only [freeTurn, State.syncBusy, hf, bne_iff_ne.2 hp] using ef
      obtain ⟨v, ev, hv⟩ := syncStep_settles h
      cases this.symm.trans ev
      exact absurd hv hpt
    | cons f rest =>
      refine ih t ht hpt (hsu.trans hs) (hhu.trans hh) ?_
      rw [hpu, if_pos ⟨hp, by simp [hf]⟩]; omega

/-- R100, R159: under the fairness premise a pending synchronisation of a live block is completed, unless a mark ends the
run first, whatever turns are given before the schedule is used up. -/
theorem fair_settles {s : State} (fair : FairSync s.handle) (h : s.Live) : Settles s := by
  suffices H : ∀ (turns : List Turn) (u : State), u.Live → u.syncOp ≠ .none → u.handle = s.handle → u.schedule = turns →
      Settles u by
    by_cases hp : s.syncOp = .none
    · exact .now (.inl hp)
    · exact H _ s h hp rfl rfl
  intro turns
  induction turns with
  | nil =>
    intro u hu hp hh hs
    obtain ⟨m, hle, hm⟩ := fair u.picks
    exact settles_free hm (m - u.picks) u hu hp hs hh (by omega)
  | cons w rest ih =>
    intro u hu hp hh hs
    refine .of_step hu fun t e ht hpt => ?_
    obtain ⟨v, e', _, hhv, hsv⟩ := step_runs hu
    cases e.symm.trans e'
    exact ih t ht hpt (hhv.trans hh) (by rw [hsv, hs]; rfl)

end Sys2Proof.Machine
end

