-- ==== Sys2Proof/Laws/Operands.lean ====
section
/-! SUPPORT. The bits of the register images, and that a field cut out of an image is the field put in (R67, R75). -/

namespace Sys2Proof.Machine

theorem flagAt_getLsbD (v : Bool) (i j : Nat) :
    (flagAt v i).getLsbD j = (v && decide (i = j) && decide (j < 32)) := by
  unfold flagAt
  cases v
  · simp
  · by_cases h : i = j
    · subst h; simp
    · by_cases h' : j < i
      · simp [BitVec.getLsbD_shiftLeft, h, h']
      · have : j - i ≠ 0 := by omega
        simp [BitVec.getLsbD_shiftLeft, h, this, BitVec.getLsbD_one]

theorem fieldAt_getLsbD {w : Nat} (v : BitVec w) (i j : Nat) :
    (fieldAt v i).getLsbD j = (decide (i ≤ j) && decide (j < 32) && v.getLsbD (j - i)) := by
  unfold fieldAt
  by_cases h : i ≤ j
  · by_cases h' : j < 32
    · simp [h, h']
    · simp [h']
  · have : j < i := by omega
    simp [h, this]

@[simp] theorem flagAt_getElem (v : Bool) (i j : Nat) (h : j < 32) :
    (flagAt v i)[j] = (v && decide (i = j)) := by
  rw [← BitVec.getLsbD_eq_getElem, flagAt_getLsbD]; simp [h]

@[simp] theorem fieldAt_getElem {w : Nat} (v : BitVec w) (i j : Nat) (h : j < 32) :
    (fieldAt v i)[j] = (decide (i ≤ j) && v.getLsbD (j - i)) := by
  rw [← BitVec.getLsbD_eq_getElem, fieldAt_getLsbD]; simp [h]

section
variable (c : CtrlA)

/-- Bit `j` of CTRLA as read (R22, R80). -/
theorem ctrlaWord_getElem (j : Nat) (h : j < 32) : (ctrlaWord c)[j] =
    ((flagAt c.swrst 0)[j] || (flagAt c.enable 1)[j] || (fieldAt c.mode 2)[j] ||
      (fieldAt c.sampr 13)[j] || (fieldAt c.pads 16)[j] || (fieldAt c.form 24)[j] ||
      (flagAt c.cpha 28)[j] || (flagAt c.cpol 29)[j] || (flagAt c.dord 30)[j]) := by
  simp only [ctrlaWord, BitVec.getElem_or]

@[simp] theorem wSwrst_ctrlaWord : wSwrst (ctrlaWord c) = c.swrst := by simp [wSwrst, ctrlaWord_getElem]
@[simp] theorem wEnable_ctrlaWord : wEnable (ctrlaWord c) = c.enable := by simp [wEnable, ctrlaWord_getElem]
@[simp] theorem wCpha_ctrlaWord : wCpha (ctrlaWord c) = c.cpha := by simp [wCpha, ctrlaWord_getElem]
@[simp] theorem wCpol_ctrlaWord : wCpol (ctrlaWord c) = c.cpol := by simp [wCpol, ctrlaWord_getElem]
@[simp] theorem wDord_ctrlaWord : wDord (ctrlaWord c) = c.dord := by simp [wDord, ctrlaWord_getElem]
@[simp] theorem wMode_ctrlaWord : wMode (ctrlaWord c) = c.mode := by
  apply BitVec.eq_of_getLsbD_eq; intro i hi
  interval_cases i <;> simp [wMode, ctrlaWord_getElem]
@[simp] theorem wSampr_ctrlaWord : wSampr (ctrlaWord c) = c.sampr := by
  apply BitVec.eq_of_getLsbD_eq; intro i hi
  interval_cases i <;> simp [wSampr, ctrlaWord_getElem]
@[simp] theorem wPads_ctrlaWord : wPads (ctrlaWord c) = c.pads := by
  apply BitVec.eq_of_getLsbD_eq; intro i hi
  interval_cases i <;> simp [wPads, ctrlaWord_getElem]
@[simp] theorem wForm_ctrlaWord : wForm (ctrlaWord c) = c.form := by
  apply BitVec.eq_of_getLsbD_eq; intro i hi
  interval_cases i <;> simp [wForm, ctrlaWord_getElem]

end

section
variable (c : CtrlB)

/-- Bit `j` of CTRLB as read (R23, R81). -/
theorem ctrlbWord_getElem (j : Nat) (h : j < 32) : (ctrlbWord c)[j] =
    ((fieldAt c.chsize 0)[j] || (flagAt c.sbmode 6)[j] || (flagAt c.pmode 13)[j] ||
      (flagAt c.ackact 18)[j]) := by
  simp only [ctrlbWord, BitVec.getElem_or]

@[simp] theorem wSbmode_ctrlbWord : wSbmode (ctrlbWord c) = c.sbmode := by simp [wSbmode, ctrlbWord_getElem]
@[simp] theorem wPmode_ctrlbWord : wPmode (ctrlbWord c) = c.pmode := by simp [wPmode, ctrlbWord_getElem]
@[simp] theorem wAckact_ctrlbWord : wAckact (ctrlbWord c) = c.ackact := by simp [wAckact, ctrlbWord_getElem]
@[simp] theorem wChsize_ctrlbWord : wChsize (ctrlbWord c) = c.chsize := by
  apply BitVec.eq_of_getLsbD_eq; intro i hi
  interval_cases i <;> simp [wChsize, ctrlbWord_getElem]
@[simp] theorem wCmd_ctrlbWord : wCmd (ctrlbWord c) = 0#2 := by
  apply BitVec.eq_of_getLsbD_eq; intro i hi
  interval_cases i <;> simp [wCmd, ctrlbWord_getElem]

end

@[simp] theorem wBaud_baudWord (b : BitVec 16) : wBaud (baudWord b) = b := by
  apply BitVec.eq_of_getLsbD_eq; intro i hi
  have : i < 32 := by omega
  simp [wBaud, baudWord, hi, this, BitVec.getLsbD_eq_getElem]

@[simp] theorem wGencen_addrWord (r : AddrReg) : wGencen (addrWord r) = r.gencen := by
  simp [wGencen, addrWord]

@[simp] theorem wAddr_addrWord (r : AddrReg) : wAddr (addrWord r) = r.addr := by
  apply BitVec.eq_of_getLsbD_eq; intro i hi
  interval_cases i <;> simp [wAddr, addrWord]

/-- SYNCBUSY is bit 15 of the status word, whatever the engine drives below it (R26, R84). -/
@[simp] theorem statusWord_bit15 (busy : Bool) (e : BitVec 15) : (statusWord busy e).getLsbD 15 = busy := by
  simp [statusWord]

/-- The same bit in the form `simp` gives it. -/
@[simp] theorem statusWord_getElem (busy : Bool) (e : BitVec 15) : (statusWord busy e)[15] = busy := by
  rw [← BitVec.getLsbD_eq_getElem, statusWord_bit15]

/-- SWRST and ENABLE of CTRLA as read (R22, R80), as the waits and `SEQ_RESET` test them. -/
@[simp] theorem ctrlaWord_swrst (c : CtrlA) : (ctrlaWord c)[0] = c.swrst := by
  simpa [wSwrst] using wSwrst_ctrlaWord c
@[simp] theorem ctrlaWord_enable (c : CtrlA) : (ctrlaWord c)[1] = c.enable := by
  simpa [wEnable] using wEnable_ctrlaWord c

/-- Bits 14:0 of the status word are the engine's (R26, R84). -/
theorem statusWord_engstat (busy : Bool) (e : BitVec 15) : (statusWord busy e).extractLsb' 0 15 = e := by
  apply BitVec.eq_of_getLsbD_eq; intro i hi
  have h1 : i < 32 := by omega
  have h2 : ¬ 15 = i := by omega
  simp [statusWord, hi, h1, h2]

end Sys2Proof.Machine
end

