-- ==== Sys2Proof/Laws/PerInstr.lean ====
section
/-! SUPPORT. Facts about each instruction as syntax: its encoding spells a transaction, and a read is encoded with
`WDATA = 0` (R63, R68). -/

namespace Sys2Proof.Laws.EncodedWord

/-- The encoded word passes the header checks of R63, its write-enable bit says which kind of transaction it is, and
a read carries no write data (R60, R63). -/
def Statement (i : Instr) : Prop :=
  TxnWord.wellFormed (encode i) = true ∧ TxnWord.we (encode i) = !i.isRead ∧
    (i.isRead = true → TxnWord.wdata (encode i) = 0#32)

/-- The statement follows from the header byte `h` and the data word of the encoding. -/
theorem of_header (i : Instr) (h : BitVec 8) (w : Bool) (hi : headerOf i = h ∧ i.isRead = !w)
    (hh : h.extractLsb' 5 2 = 0#2 ∧ h.extractLsb' 0 2 = 0#2 ∧ h.getLsbD 7 = w)
    (hd : i.isRead = true → wdataOf i = 0#32) : Statement i := by
  refine ⟨?_, ?_, ?_⟩
  · simp [TxnWord.wellFormed, reservedClear_eq, aligned_eq, hi.1, hh.1, hh.2.1]
  · rw [we_eq, encode_header, hi.1, hh.2.2, hi.2, Bool.not_not]
  · simpa using hd

theorem rdCtrla : Statement .rdCtrla :=
  of_header _ 0x00#8 false ⟨rfl, rfl⟩ (by decide) (fun _ => rfl)
theorem rdCtrlb : Statement .rdCtrlb :=
  of_header _ 0x04#8 false ⟨rfl, rfl⟩ (by decide) (fun _ => rfl)
theorem rdBaud : Statement .rdBaud :=
  of_header _ 0x08#8 false ⟨rfl, rfl⟩ (by decide) (fun _ => rfl)
theorem rdAddr : Statement .rdAddr :=
  of_header _ 0x0C#8 false ⟨rfl, rfl⟩ (by decide) (fun _ => rfl)
theorem rdStatus : Statement .rdStatus :=
  of_header _ 0x10#8 false ⟨rfl, rfl⟩ (by decide) (fun _ => rfl)
theorem rdEng0 : Statement .rdEng0 :=
  of_header _ 0x14#8 false ⟨rfl, rfl⟩ (by decide) (fun _ => rfl)
theorem rdEng1 : Statement .rdEng1 :=
  of_header _ 0x18#8 false ⟨rfl, rfl⟩ (by decide) (fun _ => rfl)
theorem rdEng2 : Statement .rdEng2 :=
  of_header _ 0x1C#8 false ⟨rfl, rfl⟩ (by decide) (fun _ => rfl)
theorem wrCtrla (d : Word) : Statement (.wrCtrla d) :=
  of_header _ 0x80#8 true ⟨rfl, rfl⟩ (by decide) (fun h => by cases h)
theorem wrCtrlb (d : Word) : Statement (.wrCtrlb d) :=
  of_header _ 0x84#8 true ⟨rfl, rfl⟩ (by decide) (fun h => by cases h)
theorem wrBaud (d : Word) : Statement (.wrBaud d) :=
  of_header _ 0x88#8 true ⟨rfl, rfl⟩ (by decide) (fun h => by cases h)
theorem wrAddr (d : Word) : Statement (.wrAddr d) :=
  of_header _ 0x8C#8 true ⟨rfl, rfl⟩ (by decide) (fun h => by cases h)
theorem wrStatus (d : Word) : Statement (.wrStatus d) :=
  of_header _ 0x90#8 true ⟨rfl, rfl⟩ (by decide) (fun h => by cases h)
theorem wrEng0 (d : Word) : Statement (.wrEng0 d) :=
  of_header _ 0x94#8 true ⟨rfl, rfl⟩ (by decide) (fun h => by cases h)
theorem wrEng1 (d : Word) : Statement (.wrEng1 d) :=
  of_header _ 0x98#8 true ⟨rfl, rfl⟩ (by decide) (fun h => by cases h)
theorem wrEng2 (d : Word) : Statement (.wrEng2 d) :=
  of_header _ 0x9C#8 true ⟨rfl, rfl⟩ (by decide) (fun h => by cases h)

end Sys2Proof.Laws.EncodedWord
end

