-- ==== Sys2Proof/Laws/Run.lean ====
section
/-! SUPPORT. Runs cut into pieces, and one lemma per operation of the sequencer: which turn a step takes, which line a turn
of SEQ runs, and where an expansion goes on or ends (R10, R21, R120). -/

namespace Sys2Proof.Machine

/-! How many lines each expansion has (R121 to R142) -/

@[simp] theorem lineCount_waitSync : lineCount .waitSync = 2 := rfl
@[simp] theorem lineCount_waitReset : lineCount .waitReset = 3 := rfl
@[simp] theorem lineCount_reset : lineCount .reset = 6 := rfl
@[simp] theorem lineCount_enable : lineCount .enable = 3 := rfl
@[simp] theorem lineCount_disable : lineCount .disable = 3 := rfl
@[simp] theorem lineCount_initUart (a : BitVec 3) (b : BitVec 6) (c : BitVec 4) (d : Bool) (e : BitVec 3) (f g : Bool) (h : BitVec 16) :
    lineCount (.initUart a b c d e f g h) = 4 := rfl
@[simp] theorem lineCount_initSpi (a : SpiSettings) : lineCount (.initSpi a) = 4 := rfl
@[simp] theorem lineCount_initI2cm (a : BitVec 16) : lineCount (.initI2cm a) = 3 := rfl
@[simp] theorem lineCount_initI2cs (a : BitVec 7) (b : Bool) : lineCount (.initI2cs a b) = 3 := rfl
@[simp] theorem lineCount_setDordSpi (a : Bool) : lineCount (.setDordSpi a) = 4 := rfl
@[simp] theorem lineCount_setClkmodeSpi (a b : Bool) : lineCount (.setClkmodeSpi a b) = 4 := rfl
@[simp] theorem lineCount_setBaudSpi (a : Nat) : lineCount (.setBaudSpi a) = 4 := rfl
@[simp] theorem lineCount_configSpi (a : SpiSettings) : lineCount (.configSpi a) = 2 := rfl
@[simp] theorem lineCount_beginSpi : lineCount .beginSpi = 3 := rfl
@[simp] theorem lineCount_endSpi : lineCount .endSpi = 3 := rfl
@[simp] theorem lineCount_isMaster : lineCount .isMaster = 2 := rfl
@[simp] theorem lineCount_roleCheck : lineCount .roleCheck = 2 := rfl
@[simp] theorem lineCount_ack : lineCount .ack = 3 := rfl
@[simp] theorem lineCount_nack : lineCount .nack = 3 := rfl
@[simp] theorem lineCount_command (a : BitVec 2) : lineCount (.command a) = 4 := rfl
@[simp] theorem lineCount_beginUart (a : BitVec 3) (b : BitVec 6) (c : BitVec 4) (d : Bool) (e : BitVec 3) (f g : Bool) (h : BitVec 16) :
    lineCount (.beginUart a b c d e f g h) = 2 := rfl
@[simp] theorem lineCount_beginI2cm (a : BitVec 16) : lineCount (.beginI2cm a) = 2 := rfl
@[simp] theorem lineCount_beginI2cs (a : BitVec 7) (b : Bool) : lineCount (.beginI2cs a b) = 2 := rfl
@[simp] theorem lineCount_endFrontEnd : lineCount .endFrontEnd = 1 := rfl

/-- A run of `m + n` steps is one of `n` steps from where the first `m` lead. -/
theorem run_add {m n : Nat} {s t : State} (h : Host.Core.run core m s = .next t) :
    Host.Core.run core (m + n) s = Host.Core.run core n t := by
  induction m generalizing s with
  | zero => cases h; rw [Nat.zero_add]
  | succ m ih =>
    rw [Nat.succ_add_eq_add_succ] at *
    simp only [Host.Core.run] at *
    split at h
    · exact ih h
    · cases h
    · cases h

/-- A run of one step more, from its first step. -/
theorem run_step {n : Nat} {s t : State} (h : step s = .next t) :
    Host.Core.run core (n + 1) s = Host.Core.run core n t := by
  simp only [Host.Core.run, core, h]

/-- The head of the schedule takes the next turn. Log 2. -/
theorem step_turn {s : State} {u : Turn} {rest : List Turn} (h : s.schedule = u :: rest) :
    step s = runTurn u { s with schedule := rest } := by
  simp only [step, takeTurn, h]

/-- A turn of SEQ runs the line at its step pointer (R120). -/
theorem seqStep_line {s : State} {f : Frame} {rest : List Frame} {ln : Line} (h : s.Live) (hf : s.frames = f :: rest)
    (hl : (expansion f.locals s.spiInited f.req)[f.upc]? = some ln) : seqStep s = runLine ln f rest s := by
  simp only [seqStep, whileLive_live h, hf, hl]

/-- An expansion with a line left goes on with it (R120). -/
theorem goOn_more {f : Frame} {rest : List Frame} {s : State} (h : f.upc < lineCount f.req) :
    s.goOn (f :: rest) = { s with frames := f :: rest } := by
  simp [State.goOn, unwind, h]

/-- An expansion that was handed over and has no line left ends its request with `OK` (R120). -/
theorem goOn_ends {f : Frame} {rest : List Frame} {s : State} (h : lineCount f.req ≤ f.upc) (hn : f.nested = false) :
    s.goOn (f :: rest) = { s with frames := rest, outcome := some (.ok f.value) } := by
  simp [State.goOn, unwind, Nat.not_lt.2 h, hn]

/-- A called expansion with no line left lets its caller go on with its next line (R120). -/
theorem goOn_returns {f g : Frame} {rest : List Frame} {s : State} (h : lineCount f.req ≤ f.upc) (hn : f.nested = true) :
    s.goOn (f :: g :: rest) = s.goOn (g.next :: rest) := by
  simp [State.goOn, unwind, Nat.not_lt.2 h, hn]

/-- With no mark set a transaction's line leaves the frames to go on (R120). -/
theorem afterLine_clean {fs : List Frame} {s : State} (hf : s.fault = none) (hr : s.refused = none) :
    s.afterLine fs = s.goOn fs := by
  simp [State.afterLine, hf, hr]

/-- A request that times out ends with all it called; the request below it stays (R138). -/
theorem dropRequest_called {called : List Frame} {g : Frame} {below : List Frame} (h : ∀ f ∈ called, f.nested = true)
    (hg : g.nested = false) : dropRequest (called ++ g :: below) = below := by
  induction called with
  | nil => simp [dropRequest, hg]
  | cons f fs ih => simp only [List.cons_append, dropRequest, h f (by simp)]; exact ih fun x hx => h x (by simp [hx])

end Sys2Proof.Machine
end

