-- ==== Sys2Proof/Tests/Slice0.lean ====
section
/-! SUPPORT. Tests on small states. Every expected result comes from a vector of spec/95_test_vectors.md (named in the
comment: E, A, B, C, D, F, Y, Q) or from the rule named there. The theorems `test_witness_<statement>` show a state and
operands that meet that statement's hypotheses, clause by clause. -/

namespace Sys2Proof.Tests

open Sys2Proof.Machine

/-! Start states (95_test_vectors.md section 0) -/

/-- A state from the read values of its registers, with nothing pending. -/
def withRegs (a b : Word) (baud : BitVec 16) (adr : Word) (enEff locked : Bool) : State :=
  { State.reset with
    ctrla := { swrst := wSwrst a, enable := wEnable a, mode := wMode a, sampr := wSampr a, pads := wPads a,
               form := wForm a, cpha := wCpha a, cpol := wCpol a, dord := wDord a }
    ctrlb := { chsize := wChsize b, sbmode := wSbmode b, pmode := wPmode b, ackact := wAckact b }
    baud := baud
    addr := { gencen := wGencen adr, addr := wAddr adr }
    enEff := enEff
    modeLocked := locked }

def sPr : State := withRegs 0#32 0#32 0#16 0#32 false false
def sSpiCfg : State := withRegs 0x1003000C#32 0#32 5#16 0#32 false false
def sSpiEn : State := withRegs 0x1003000E#32 0#32 5#16 0#32 true true
def sSpiDis : State := withRegs 0x1003000C#32 0#32 5#16 0#32 false true
def sUartEn : State := withRegs 0x41110006#32 0#32 0xF62B#16 0#32 true true
def sI2cmEn : State := withRegs 0x00000016#32 0#32 0xE8#16 0#32 true true
def sI2csEn : State := withRegs 0x00000012#32 0#32 0#16 0x91#32 true true

/-- After A1: an enable is pending. -/
def sEnabling : State := { withRegs 0x1003000E#32 0#32 0#16 0#32 false true with syncOp := .enable }
/-- After A9: a disable is pending. -/
def sDisabling : State := { withRegs 0x1003000C#32 0#32 5#16 0#32 true true with syncOp := .disable }
/-- After A10: a reset is pending. -/
def sResetting : State := { withRegs 0x1003000F#32 0#32 5#16 0#32 true true with syncOp := .reset }
/-- After B5: a command of the master is pending. -/
def sCommand : State :=
  { withRegs 0x00000016#32 0x00040000#32 0xE8#16 0#32 true true with
    syncOp := .cmd, cmdPending := some (.master, 3#2) }

/-- The next state of a result, if it has one. -/
def nextOf (r : Result) : Option State :=
  match r with
  | .next t => some t
  | .fault _ => none
  | .refused _ => none

/-! Decoding: a word of every transaction (vectors E1 to E13) -/

theorem test_decode_rdCtrla : decode 0x00DEADBEEF#40 = .ok .rdCtrla := by decide
theorem test_decode_rdCtrlb : decode 0b0000010000000000000000000000000000000000#40 = .ok .rdCtrlb := by decide
theorem test_decode_rdBaud : decode 0x0800000000#40 = .ok .rdBaud := by decide
theorem test_decode_rdAddr : decode 0x0C00000000#40 = .ok .rdAddr := by decide
theorem test_decode_rdStatus : decode 0b0001000000000000000000000000000000000000#40 = .ok .rdStatus := by decide
theorem test_decode_rdEng0 : decode 0x1400000000#40 = .ok .rdEng0 := by decide
theorem test_decode_rdEng1 : decode 0x1800000000#40 = .ok .rdEng1 := by decide
theorem test_decode_rdEng2 : decode 0b0001110000000000000000000000000000000000#40 = .ok .rdEng2 := by decide
theorem test_decode_wrCtrla :
    decode 0b1000000000010000000000110000000000001110#40 = .ok (.wrCtrla 0x1003000E#32) := by decide
theorem test_decode_wrCtrlb : decode 0x8400070000#40 = .ok (.wrCtrlb 0x00070000#32) := by decide
theorem test_decode_wrBaud : decode 0x8800000005#40 = .ok (.wrBaud 0x00000005#32) := by decide
theorem test_decode_wrAddr : decode 0x8C00000091#40 = .ok (.wrAddr 0x00000091#32) := by decide
theorem test_decode_wrStatus :
    decode 0b1001000000000000000000001000000000000110#40 = .ok (.wrStatus 0x00008006#32) := by decide
theorem test_decode_wrEng0 : decode 0x94000000A5#40 = .ok (.wrEng0 0x000000A5#32) := by decide
theorem test_decode_wrEng1 : decode 0x9800000091#40 = .ok (.wrEng1 0x00000091#32) := by decide
theorem test_decode_wrEng2 : decode 0x9CFFFFFFFF#40 = .ok (.wrEng2 0xFFFFFFFF#32) := by decide

/-- E14 to E17: words that spell no transaction, and by which check. -/
theorem test_decode_invalid :
    decode 0x0100000000#40 = .error .unalignedOffset ∧ decode 0x0200000000#40 = .error .unalignedOffset ∧
    decode 0x8300000000#40 = .error .unalignedOffset ∧ decode 0x9F00000000#40 = .error .unalignedOffset ∧
    decode 0x2000000000#40 = .error .reservedHeader ∧ decode 0x4000000000#40 = .error .reservedHeader ∧
    decode 0x7C00000000#40 = .error .reservedHeader ∧ decode 0xC000000001#40 = .error .reservedHeader ∧
    decode 0xFF00000000#40 = .error .reservedHeader := by decide

/-- Section 2, the count: 16 of the 256 header bytes spell a transaction. -/
theorem test_decode_sixteen_headers :
    ((List.range 256).filter fun h => (decodeTableWord 40 (h * 2 ^ 32)).isSome).length = 16 := by decide

/-- R68: `encode(decode(T)) = T` for E8, not for E2. -/
theorem test_encode_round :
    encode (.wrCtrla 0x1003000E#32) = 0x801003000E#40 ∧ encode .rdCtrla = 0x0000000000#40 := by decide

/-! WellFormed: an ill-formed word for each check of R63, and one that passes both -/

theorem test_wellFormed_refuses_reserved :
    TxnWord.wellFormed 0x2000000000#40 = false ∧ TxnWord.reservedClear 0x2000000000#40 = false ∧
    TxnWord.wellFormed 0xC000000001#40 = false := by decide
theorem test_wellFormed_refuses_unaligned :
    TxnWord.wellFormed 0x0100000000#40 = false ∧ TxnWord.aligned 0x0100000000#40 = false ∧
    TxnWord.wellFormed 0x8200000000#40 = false := by decide
theorem test_wellFormed_accepts : TxnWord.wellFormed 0x9CFFFFFFFF#40 = true := by decide

/-! Control-register writes -/

/-- A1: configuration and enable in one write. -/
theorem test_wrCtrla_enable :
    (nextOf (exec (.wrCtrla 0x1003000E#32) sPr)).map (fun t => (ctrlaWord t.ctrla, t.syncOp, t.modeLocked, t.grant)) =
      some (0x1003000E#32, .enable, true, .none) := by decide
/-- A13: MODE stays locked at 3, the other fields are accepted. -/
theorem test_wrCtrla_mode_locked :
    (nextOf (exec (.wrCtrla 0x41110006#32) sSpiDis)).map (fun t => (ctrlaWord t.ctrla, t.syncOp)) =
      some (0x4111000E#32, .enable) := by decide
/-- B2: CMD is dropped with no grant, and the reserved bits are not stored. -/
theorem test_wrCtrlb_dropped :
    (nextOf (exec (.wrCtrlb 0xFFFFFFFF#32) sPr)).map (fun t => (ctrlbWord t.ctrlb, t.cmdPending, t.syncOp)) =
      some (0x00042047#32, none, .none) := by decide
/-- B5: a command is latched for the master. -/
theorem test_wrCtrlb_command :
    nextOf (exec (.wrCtrlb 0x00070000#32) sI2cmEn) = some sCommand := by decide
/-- C3: BAUD takes the low 16 bits. -/
theorem test_wrBaud_low_half :
    (nextOf (exec (.wrBaud 0xFFFF1234#32) sPr)).map (·.baud) = some 0x1234#16 := by decide
/-- C5: a pending synchronisation makes the write a fault that changes nothing else. -/
theorem test_wrBaud_fault :
    nextOf (exec (.wrBaud 0x00000005#32) sEnabling) = some { sEnabling with fault := some .fSync } := by decide
/-- D2: ADDR keeps its low byte. -/
theorem test_wrAddr_low_byte :
    (nextOf (exec (.wrAddr 0xFFFFFFFF#32) sPr)).map (fun t => addrWord t.addr) = some 0x000000FF#32 := by decide
/-- D3: ADDR is ignored while enabled. -/
theorem test_wrAddr_enabled : nextOf (exec (.wrAddr 0x00000020#32) sI2csEn) = some sI2csEn := by decide

/-! Reads and the engine window -/

/-- F1: while a reset is pending the old values are visible. -/
theorem test_rdCtrla_resetting : (nextOf (exec .rdCtrla sResetting)).map (·.rdata) = some 0x1003000F#32 := by decide
/-- F4: CMD reads 0 while a command is pending. -/
theorem test_rdCtrlb_pending : (nextOf (exec .rdCtrlb sCommand)).map (·.rdata) = some 0x00040000#32 := by decide
/-- R82, from the state `S_UART_EN`. -/
theorem test_rdBaud : (nextOf (exec .rdBaud sUartEn)).map (·.rdata) = some 0x0000F62B#32 := by decide
/-- F8. -/
theorem test_rdAddr : (nextOf (exec .rdAddr sI2csEn)).map (·.rdata) = some 0x00000091#32 := by decide
/-- F5 and F6: bit 15 is SYNCBUSY whatever the engine's status is, and no event is recorded. -/
theorem test_rdStatus_busy :
    (nextOf (exec .rdStatus sCommand)).map (fun t => (t.rdata.getLsbD 15, t.hist)) = some (true, []) := by
  change some ((statusWord true (Config.engStatus 0 0)).getLsbD 15, _) = _
  rw [statusWord_bit15]; rfl
theorem test_rdStatus_idle :
    (nextOf (exec .rdStatus sSpiEn)).map (fun t => (t.rdata.getLsbD 15, t.hist)) = some (false, []) := by
  change some ((statusWord false (Config.engStatus 0 0)).getLsbD 15, _) = _
  rw [statusWord_bit15]; rfl
/-- F9. -/
theorem test_rdEng0 : (nextOf (exec .rdEng0 sUartEn)).map (·.hist) = some [.engRead .uart 0x14#5] := by decide
/-- R86, from the state `S_I2CM_EN`. -/
theorem test_rdEng1 : (nextOf (exec .rdEng1 sI2cmEn)).map (·.hist) = some [.engRead .i2cm 0x18#5] := by decide
/-- F10: with no grant nothing is recorded. -/
theorem test_rdEng2_no_grant : (nextOf (exec .rdEng2 sPr)).map (·.hist) = some [] := by decide
/-- F11: bit 15 of a STATUS write is dropped. -/
theorem test_wrStatus :
    (nextOf (exec (.wrStatus 0x00008006#32) sUartEn)).map (fun t => (t.hist, t.syncBusy)) =
      some ([.engWrite .uart 0x10#5 0x00000006#32], false) := by decide
/-- F12. -/
theorem test_wrEng0 :
    (nextOf (exec (.wrEng0 0x000000A5#32) sSpiEn)).map (·.hist) = some [.engWrite .spi 0x14#5 0x000000A5#32] := by decide
/-- F13: a write before the grant is lost, without a fault. -/
theorem test_wrEng0_lost : nextOf (exec (.wrEng0 0x000000A5#32) sEnabling) = some sEnabling := by decide
/-- F14: a forwarded write makes no sync check. -/
theorem test_wrEng1 :
    (nextOf (exec (.wrEng1 0x00000091#32) sCommand)).map (fun t => (t.hist, t.fault)) =
      some ([.engWrite .i2cm 0x18#5 0x00000091#32], none) := by decide
/-- R91, from the state `S_I2CS_EN`. -/
theorem test_wrEng2 :
    (nextOf (exec (.wrEng2 0xFFFFFFFF#32) sI2csEn)).map (·.hist) = some [.engWrite .i2cs 0x1C#5 0xFFFFFFFF#32] := by
  decide

/-- R11: the results of all reads are kept, in order. -/
theorem test_reads_kept :
    ((nextOf (exec .rdAddr sI2csEn)).bind fun t => (nextOf (exec .rdBaud t)).map (·.observe.reads)) =
      some [0x00000091#32, 0x00000000#32] := by decide

/-! SYNC_COMPLETE -/

/-- Y1. -/
theorem test_sync_enable :
    nextOf (syncStep sEnabling) = some { sSpiEn with baud := 0#16, hist := [.grant .spi] } := by decide
/-- Y2. -/
theorem test_sync_disable : nextOf (syncStep sDisabling) = some { sSpiDis with hist := [.release .spi] } := by decide
/-- Y3. -/
theorem test_sync_reset :
    nextOf (syncStep sResetting) = some { sPr with hist := [.release .spi, .engReset] } := by decide
/-- Y5. -/
theorem test_sync_command :
    nextOf (syncStep sCommand) =
      some { sCommand with cmdPending := none, syncOp := .none, hist := [.cmd .master 3#2] } := by decide

/-! The sequencer's words (Q3, Q5, Q8 and the worked examples of R127 and R129) -/

theorem test_initUart_word : initUartCtrla 0#3 0x11#6 1#4 true = 0x41110004#32 := by decide
theorem test_initSpi_word : initSpiCtrla ⟨3#6, false, false, true, 0#3, 5#16⟩ = 0x1003000C#32 := by decide
theorem test_setDord_word :
    (expansion { a := 0x1003000C#32 } false (.setDordSpi true))[2]? = some (.txn (.wrCtrla 0x5003000C#32)) := by decide
theorem test_setClkmode_word :
    (expansion { a := 0x1003000C#32 } false (.setClkmodeSpi true false))[2]? = some (.txn (.wrCtrla 0x2003000C#32)) := by
  decide
theorem test_initI2cs_word :
    (expansion {} false (.initI2cs 0x48#7 true))[2]? = some (.txn (.wrAddr 0x00000091#32)) := by decide
theorem test_command_word :
    (expansion { b := 0x00040000#32 } false (.command 3#2))[2]? = some (.txn (.wrCtrlb 0x00070000#32)) := by decide

/-- R137: a UART `begin` is the initialisation, then the enable, and its `end` is `SEQ_RESET`. -/
theorem test_frontEnd_lines :
    expansion {} false (.beginUart 0#3 0x11#6 1#4 true 0#3 false false 0xF62B#16) =
      [.call (.initUart 0#3 0x11#6 1#4 true 0#3 false false 0xF62B#16), .call .enable] ∧
    expansion {} false .endFrontEnd = [.call .reset] := by decide

/-! The step -/

/-- E15 as a step from reset: the word is refused, and nothing else changes. -/
theorem test_step_invalid :
    nextOf (step (State.reset.withFetchWord 40 0x8300000000)) = some { State.reset with refused := some .badTxn } := by
  decide
/-- R71 as the first step from reset: a software reset is pending. -/
theorem test_step_first :
    (nextOf (step (State.reset.withFetchWord 40 0x8000000001))).map (·.seqState) = some .resetting := by decide

/-! Witnesses: what meets the hypotheses of the statements -/

theorem live_reset : State.reset.Live := ⟨rfl, rfl, rfl⟩
theorem live_sPr : sPr.Live := ⟨rfl, rfl, rfl⟩
theorem live_sSpiCfg : sSpiCfg.Live := ⟨rfl, rfl, rfl⟩
theorem live_sSpiEn : sSpiEn.Live := ⟨rfl, rfl, rfl⟩
theorem live_sSpiDis : sSpiDis.Live := ⟨rfl, rfl, rfl⟩
theorem live_sI2cmEn : sI2cmEn.Live := ⟨rfl, rfl, rfl⟩
theorem live_sI2csEn : sI2csEn.Live := ⟨rfl, rfl, rfl⟩
theorem live_sEnabling : sEnabling.Live := ⟨rfl, rfl, rfl⟩
theorem live_sDisabling : sDisabling.Live := ⟨rfl, rfl, rfl⟩
theorem live_sResetting : sResetting.Live := ⟨rfl, rfl, rfl⟩
theorem live_sCommand : sCommand.Live := ⟨rfl, rfl, rfl⟩

/-- The decidable part of the invariants, for the states of these tests. -/
def invHolds (s : State) : Bool :=
  decide ((s.ctrla.swrst = true ↔ s.syncOp = .reset) ∧ (s.syncOp = .none → s.enEff = s.ctrla.enable) ∧
    (s.ctrla.enable = true → s.modeLocked = true ∧ pers s.ctrla.mode ≠ .none) ∧
    (s.enEff = true → pers s.ctrla.mode ≠ .none) ∧
    (s.syncOp = .cmd → s.enEff = true ∧ s.ctrla.enable = true ∧ s.cmdPending ≠ none ∧
      (pers s.ctrla.mode = .i2cm ∨ pers s.ctrla.mode = .i2cs)) ∧
    (s.syncOp ≠ .cmd → s.cmdPending = none) ∧ (s.syncOp = .enable → s.ctrla.enable = true ∧ s.enEff = false) ∧
    (s.syncOp = .disable → s.ctrla.enable = false ∧ s.enEff = true) ∧
    [s.enUart, s.enSpi, s.enI2cm, s.enI2cs].count true ≤ 1 ∧ (s.enEff = true → s.modeLocked = true) ∧
    (∀ p ∈ s.cmdPending, roleOf (pers s.ctrla.mode) = some p.1 ∧ p.2 ≠ 0#2))

theorem inv_of {s : State} (h : invHolds s = true) : s.Inv := by
  obtain ⟨h1, h2, h3, h4, h5, h6, h7, h8, h9, h10, h11⟩ := of_decide_eq_true h
  exact ⟨h1, h2, h3, h4, h5, h6, h7, h8, h9, h10, fun r c e => h11 (r, c) e⟩

theorem inv_sPr : sPr.Inv := inv_of (by decide)
theorem inv_sSpiCfg : sSpiCfg.Inv := inv_of (by decide)
theorem inv_sSpiEn : sSpiEn.Inv := inv_of (by decide)
theorem inv_sSpiDis : sSpiDis.Inv := inv_of (by decide)
theorem inv_sI2cmEn : sI2cmEn.Inv := inv_of (by decide)
theorem inv_sI2csEn : sI2csEn.Inv := inv_of (by decide)
theorem inv_sEnabling : sEnabling.Inv := inv_of (by decide)
theorem inv_sDisabling : sDisabling.Inv := inv_of (by decide)
theorem inv_sResetting : sResetting.Inv := inv_of (by decide)
theorem inv_sCommand : sCommand.Inv := inv_of (by decide)

theorem test_witness_HeaderSelectsTransaction :
    BitVec.extractLsb' 32 8 0x00DEADBEEF#40 = 0x00#8 ∧ BitVec.extractLsb' 32 8 0x0400000000#40 = 0x04#8 ∧
    BitVec.extractLsb' 32 8 0x0800000000#40 = 0x08#8 ∧ BitVec.extractLsb' 32 8 0x0CFFFFFFFF#40 = 0x0C#8 ∧
    BitVec.extractLsb' 32 8 0x1000000000#40 = 0x10#8 ∧ BitVec.extractLsb' 32 8 0x1400000000#40 = 0x14#8 ∧
    BitVec.extractLsb' 32 8 0x1800000000#40 = 0x18#8 ∧ BitVec.extractLsb' 32 8 0x1C00000000#40 = 0x1C#8 ∧
    BitVec.extractLsb' 32 8 0x8000000000#40 = 0x80#8 ∧ BitVec.extractLsb' 32 8 0x84FFFFFFFF#40 = 0x84#8 ∧
    BitVec.extractLsb' 32 8 0x8800000005#40 = 0x88#8 ∧ BitVec.extractLsb' 32 8 0x8C00000091#40 = 0x8C#8 ∧
    BitVec.extractLsb' 32 8 0x9000008006#40 = 0x90#8 ∧ BitVec.extractLsb' 32 8 0x94000000A5#40 = 0x94#8 ∧
    BitVec.extractLsb' 32 8 0x9800000091#40 = 0x98#8 ∧ BitVec.extractLsb' 32 8 0x9CFFFFFFFF#40 = 0x9C#8 := by decide

theorem test_witness_InvalidWordIsRefused :
    State.reset.Live ∧ BitVec.extractLsb' 37 2 0x2000000000#40 ≠ 0#2 ∧
    BitVec.extractLsb' 32 2 0x9F00000000#40 ≠ 0#2 := ⟨live_reset, by decide, by decide⟩

theorem test_witness_EncodeAndDecodeAgree :
    Instr.wellFormed (.wrEng2 0xFFFFFFFF#32) = true ∧
    (decode 0x9CFFFFFFFF#40 = .ok (.wrEng2 0xFFFFFFFF#32) ∧ BitVec.getLsbD 0x9CFFFFFFFF#40 39 = true) ∧
    (decode 0x1C00000000#40 = .ok .rdEng2 ∧ BitVec.getLsbD 0x1C00000000#40 39 = false ∧
      BitVec.extractLsb' 0 32 0x1C00000000#40 = 0#32) := by decide

theorem test_witness_ControlWriteWhileSyncingFaults :
    sEnabling.Live ∧ sEnabling.syncOp ≠ .none ∧ isControlWrite (.wrCtrla 0#32) = true ∧
    isControlWrite (.wrStatus 0#32) = false := ⟨live_sEnabling, by decide, by decide, by decide⟩

/-- Clause by clause: pending; reset; enabled and staying so; disable; enable with no personality; enable; configure. -/
theorem test_witness_WriteCtrlaFollowsRule :
    (sEnabling.Live ∧ sEnabling.syncOp ≠ .none) ∧
    (sPr.Live ∧ sPr.syncOp = .none ∧ BitVec.getLsbD 0x00000003#32 0 = true) ∧
    (sSpiEn.Live ∧ sSpiEn.syncOp = .none ∧ BitVec.getLsbD 0x5003000E#32 0 = false ∧ sSpiEn.ctrla.enable = true ∧
      BitVec.getLsbD 0x5003000E#32 1 = true) ∧
    BitVec.getLsbD 0x5003000C#32 1 = false ∧
    (sPr.ctrla.enable = false ∧ sPr.modeLocked = false ∧ BitVec.getLsbD 0x7F3FE01E#32 1 = true ∧
      pers (BitVec.extractLsb' 2 3 0x7F3FE01E#32) = .none) ∧
    (BitVec.getLsbD 0x7F3FE016#32 1 = true ∧ pers (BitVec.extractLsb' 2 3 0x7F3FE016#32) ≠ .none) ∧
    (sSpiDis.Live ∧ sSpiDis.syncOp = .none ∧ sSpiDis.ctrla.enable = false ∧ sSpiDis.modeLocked = true ∧
      BitVec.getLsbD 0x41110004#32 0 = false ∧ BitVec.getLsbD 0x41110004#32 1 = false) :=
  ⟨⟨live_sEnabling, by decide⟩, ⟨live_sPr, by decide, by decide⟩, ⟨live_sSpiEn, by decide, by decide, by decide, by decide⟩,
    by decide, by decide, by decide, live_sSpiDis, by decide, by decide, by decide, by decide, by decide⟩

/-- Clause by clause: pending; a command of the master; of the slave; none, or none granted. -/
theorem test_witness_WriteCtrlbFollowsRule :
    (sCommand.Live ∧ sCommand.syncOp ≠ .none) ∧
    (sI2cmEn.Live ∧ sI2cmEn.syncOp = .none ∧ BitVec.extractLsb' 16 2 0x00030000#32 ≠ 0#2 ∧ sI2cmEn.grant = .i2cm) ∧
    (sI2csEn.Live ∧ sI2csEn.syncOp = .none ∧ BitVec.extractLsb' 16 2 0x00010000#32 ≠ 0#2 ∧ sI2csEn.grant = .i2cs) ∧
    (BitVec.extractLsb' 16 2 0x00042047#32 = 0#2 ∧
      (sPr.Live ∧ sPr.syncOp = .none ∧ BitVec.extractLsb' 16 2 0xFFFFFFFF#32 ≠ 0#2 ∧ sPr.grant ≠ .i2cm ∧
        sPr.grant ≠ .i2cs)) :=
  ⟨⟨live_sCommand, by decide⟩, ⟨live_sI2cmEn, by decide, by decide, by decide⟩,
    ⟨live_sI2csEn, by decide, by decide, by decide⟩, by decide, live_sPr, by decide, by decide, by decide, by decide⟩

/-- The two writes that share their hypotheses: pending; disabled; enabled. -/
theorem test_witness_WriteBaudFollowsRule :
    (sResetting.Live ∧ sResetting.syncOp ≠ .none) ∧
    (sSpiDis.Live ∧ sSpiDis.syncOp = .none ∧ sSpiDis.ctrla.enable = false) ∧
    (sSpiEn.Live ∧ sSpiEn.syncOp = .none ∧ sSpiEn.ctrla.enable = true) :=
  ⟨⟨live_sResetting, by decide⟩, ⟨live_sSpiDis, by decide, by decide⟩, live_sSpiEn, by decide, by decide⟩

theorem test_witness_WriteAddrFollowsRule :
    (sCommand.Live ∧ sCommand.syncOp ≠ .none) ∧ (sPr.Live ∧ sPr.syncOp = .none ∧ sPr.ctrla.enable = false) ∧
    (sI2csEn.Live ∧ sI2csEn.syncOp = .none ∧ sI2csEn.ctrla.enable = true) :=
  ⟨⟨live_sCommand, by decide⟩, ⟨live_sPr, by decide, by decide⟩, live_sI2csEn, by decide, by decide⟩

theorem test_witness_WritingTheReadValueChangesNothing :
    sSpiDis.Live ∧ sSpiDis.Inv ∧ sSpiDis.syncOp = .none ∧ (nextOf (exec .rdCtrla sSpiDis)).isSome ∧
    (nextOf (exec .rdCtrlb sSpiDis)).isSome ∧ (nextOf (exec .rdBaud sSpiDis)).isSome ∧
    (nextOf (exec .rdAddr sSpiDis)).isSome :=
  ⟨live_sSpiDis, inv_sSpiDis, by decide, by decide, by decide, by decide, by decide⟩

/-- Each of the four synchronisations is started by some write. -/
theorem test_witness_WhichWriteStartsWhichSync :
    (nextOf (exec (.wrCtrla 0x00000001#32) sSpiEn)).map (·.syncOp) = some .reset ∧
    (nextOf (exec (.wrCtrla 0x1003000E#32) sSpiDis)).map (·.syncOp) = some .enable ∧
    (nextOf (exec (.wrCtrla 0x1003000C#32) sSpiEn)).map (·.syncOp) = some .disable ∧
    (nextOf (exec (.wrCtrlb 0x00020000#32) sI2csEn)).map (·.syncOp) = some .cmd ∧
    sSpiEn.syncOp = .none ∧ sSpiDis.syncOp = .none ∧ sI2csEn.syncOp = .none := by decide

/-- The reads and the forwarded accesses ask for a live state only. -/
theorem test_witness_ReadsAndForwards :
    sCommand.Live ∧ sPr.Live ∧ sPr.grant = .none ∧ sI2cmEn.Live ∧ sI2cmEn.grant ≠ .none :=
  ⟨live_sCommand, live_sPr, by decide, live_sI2cmEn, by decide⟩

theorem test_witness_ReadAfterWriteSeesStoredFields :
    sPr.Live ∧ sPr.syncOp = .none ∧ sPr.ctrla.enable = false ∧ sPr.ctrla.swrst = false ∧ sPr.modeLocked = false ∧
    BitVec.extractLsb' 0 2 0xFFFFFFFC#32 = 0#2 := ⟨live_sPr, by decide, by decide, by decide, by decide, by decide⟩

theorem test_witness_BusPrimitivesRefuseOtherOffsets :
    State.reset.Live ∧ 0x1F % 4 ≠ 0 ∧ 0x20 ≤ 0x20 := ⟨live_reset, by decide, by decide⟩

theorem test_witness_StatusClearMeansFullEffect :
    sSpiEn.Inv ∧ ∃ t, exec .rdStatus sSpiEn = .next t ∧ t.rdata.getLsbD 15 = false :=
  ⟨inv_sSpiEn, _, rfl, statusWord_bit15 false _⟩

theorem test_witness_ExecAnswers :
    (nextOf (exec (.wrEng0 0xA5#32) sSpiEn)).isSome ∧ (nextOf (exec .rdStatus sSpiEn)).isSome ∧
    (nextOf (exec .rdCtrla sSpiEn)).isSome := by decide

/-- SYNC_COMPLETE in its four cases. -/
theorem test_witness_SyncComplete :
    (sResetting.Live ∧ sResetting.syncOp = .reset) ∧ (sEnabling.Live ∧ sEnabling.Inv ∧ sEnabling.syncOp = .enable) ∧
    (sDisabling.Live ∧ sDisabling.Inv ∧ sDisabling.syncOp = .disable) ∧
    (sCommand.Live ∧ sCommand.syncOp = .cmd ∧ sCommand.cmdPending = some (.master, 3#2)) :=
  ⟨⟨live_sResetting, by decide⟩, ⟨live_sEnabling, inv_sEnabling, by decide⟩, ⟨live_sDisabling, inv_sDisabling, by decide⟩,
    live_sCommand, by decide, by decide⟩

/-- `OnlySyncEndsSynchronisation` and `GrantChangesOnlyBySync`: a turn of the host while something is pending. -/
theorem test_witness_OnlySyncEndsSynchronisation :
    sCommand.Inv ∧ sCommand.syncOp ≠ .none ∧ Turn.host 0x9800000091#40 ≠ Turn.sync ∧
    (nextOf (runTurn (.host 0x9800000091#40) sCommand)).isSome := ⟨inv_sCommand, by decide, by decide, by decide⟩

theorem test_witness_ArbiterGrantsAtMostOne :
    sPr.enEff = false ∧ (sUartEn.enEff = true ∧ sUartEn.ctrla.mode = 1#3) ∧
    (sSpiEn.enEff = true ∧ sSpiEn.ctrla.mode = 3#3) ∧ (sI2csEn.enEff = true ∧ sI2csEn.ctrla.mode = 4#3) ∧
    (sI2cmEn.enEff = true ∧ sI2cmEn.ctrla.mode = 5#3) ∧
    (let m := (withRegs 0x0000001E#32 0#32 0#16 0#32 true true).ctrla.mode
     m ≠ 1#3 ∧ m ≠ 3#3 ∧ m ≠ 4#3 ∧ m ≠ 5#3) := by decide

/-- Every value of `seq_state` is met by a live state that keeps the invariants, and the written words give both values
of SWRST, of ENABLE, of `pers(d[4:2])` and of CMD. -/
theorem test_witness_SeqStateTransitions :
    (sPr.Live ∧ sPr.Inv ∧ sPr.seqState = .postreset) ∧ (sSpiCfg.Live ∧ sSpiCfg.Inv ∧ sSpiCfg.seqState = .configured) ∧
    (sSpiDis.Live ∧ sSpiDis.Inv ∧ sSpiDis.seqState = .disabled ∧ pers sSpiDis.ctrla.mode ≠ .none) ∧
    (State.reset.Live ∧ State.reset.Inv ∧ State.reset.seqState = .disabled ∧ pers State.reset.ctrla.mode = .none) ∧
    (sEnabling.Live ∧ sEnabling.Inv ∧ sEnabling.seqState = .enabling) ∧
    (sDisabling.Live ∧ sDisabling.Inv ∧ sDisabling.seqState = .disabling) ∧
    (sResetting.Live ∧ sResetting.Inv ∧ sResetting.seqState = .resetting) ∧
    (sI2cmEn.Live ∧ sI2cmEn.Inv ∧ sI2cmEn.seqState = .enabled ∧ sI2cmEn.syncOp = .none ∧ sI2cmEn.grant = .i2cm) ∧
    (sCommand.Live ∧ sCommand.Inv ∧ sCommand.syncOp = .cmd) ∧
    (pers (BitVec.extractLsb' 2 3 0x0000000C#32) ≠ .none ∧ pers (BitVec.extractLsb' 2 3 0x0000000A#32) = .none ∧
      BitVec.getLsbD 0x00000001#32 0 = true ∧ BitVec.getLsbD 0x0000000A#32 0 = false ∧
      BitVec.getLsbD 0x0000000A#32 1 = true ∧ BitVec.getLsbD 0x0000000C#32 1 = false ∧
      BitVec.extractLsb' 16 2 0x00030000#32 ≠ 0#2) :=
  ⟨⟨live_sPr, inv_sPr, by decide⟩, ⟨live_sSpiCfg, inv_sSpiCfg, by decide⟩,
    ⟨live_sSpiDis, inv_sSpiDis, by decide, by decide⟩, ⟨live_reset, inv_of (by decide), by decide, by decide⟩,
    ⟨live_sEnabling, inv_sEnabling, by decide⟩, ⟨live_sDisabling, inv_sDisabling, by decide⟩,
    ⟨live_sResetting, inv_sResetting, by decide⟩, ⟨live_sI2cmEn, inv_sI2cmEn, by decide, by decide, by decide⟩,
    ⟨live_sCommand, inv_sCommand, by decide⟩, by decide⟩

/-- `StepKeepsInvariants`, `StepKeepsHistoryInOrder`, `GrantedEngineSeesConstantConfig`: a granted engine whose command
completes. -/
def sCommandTurn : State := { sCommand with hist := [.engReset, .grant .i2cm], schedule := [.sync] }

theorem test_witness_StepKeepsInvariants :
    sCommandTurn.Inv ∧ sCommandTurn.HistInv ∧ sCommandTurn.grant ≠ .none ∧
    (nextOf (step sCommandTurn)).map (·.grant) = some .i2cm :=
  ⟨inv_of (by decide), ⟨by decide, by decide, by decide⟩, by decide, by decide⟩

/-- A personality switch in progress: SPI was granted, the block was reset, UART is about to be granted. -/
def sSwitch : State :=
  { withRegs 0x41110006#32 0#32 0xF62B#16 0#32 false true with
    syncOp := .enable, hist := [.grant .spi, .release .spi, .engReset], schedule := [.sync] }

theorem test_witness_PersonalitySwitchNeedsReset :
    sSwitch.Inv ∧ sSwitch.HistInv ∧
    (nextOf (step sSwitch)).map (·.hist) = some ([] ++ .grant .spi :: ([.release .spi, .engReset] ++ .grant .uart :: [])) ∧
    Personality.spi ≠ Personality.uart :=
  ⟨inv_of (by decide), ⟨by decide, by decide, by decide⟩, by decide, by decide⟩

/-- After a release an access is made while nothing is granted. -/
def sReleased : State :=
  { sSpiDis with hist := [.grant .spi, .release .spi], schedule := [.host 0x94000000A5#40] }

theorem test_witness_NoAccessForwardedWhileReleased :
    sReleased.Inv ∧ sReleased.HistInv ∧
    (nextOf (step sReleased)).map (·.hist) = some ([.grant .spi] ++ .release .spi :: ([] ++ [])) :=
  ⟨inv_of (by decide), ⟨by decide, by decide, by decide⟩, by decide⟩

theorem reachable_run (k : Nat) : ∀ s t : State, Reachable s → Host.Core.run Sys2Proof.core k s = .next t → Reachable t := by
  induction k with
  | zero => intro s t h e; cases e; exact h
  | succ k ih =>
    intro s t h e
    simp only [Host.Core.run] at e
    split at e
    · exact ih _ t (.step s _ h ‹_›) e
    · cases e
    · cases e

/-- The second clauses of the two statements before, on the shortest run that switches the personality (P3's order):
reset, SPI enabled, reset, UART enabled, SYNC stepping after each write. -/
theorem test_witness_Reachable :
    ∃ s, Reachable s ∧ s.hist = [.engReset] ++ .grant .spi :: ([.release .spi, .engReset] ++ .grant .uart :: []) ∧
      s.hist = [.engReset, .grant .spi] ++ .release .spi :: ([.engReset] ++ [.grant .uart]) :=
  ⟨_, reachable_run 8 _ _ (.start 0 [.host 0x8000000001#40, .sync, .host 0x800000000E#40, .sync, .host 0x8000000001#40,
    .sync, .host 0x8000000006#40, .sync]) rfl, by decide, by decide⟩

/-- A completed reset unlocks MODE and clears it. -/
theorem test_witness_ModeUnlockedOnlyByReset :
    sResetting.modeLocked = true ∧
    (nextOf (step { sResetting with schedule := [.sync] })).map (fun t => (t.modeLocked, t.ctrla.mode)) =
      some (false, 0#3) ∧ sResetting.ctrla.mode = 3#3 := by decide

/-- A disable request on its way: its wait has been called. -/
def sWaiting (upc : Nat) (s : Word) : State :=
  { sDisabling with
    frames := [{ req := .waitSync, nested := true, upc := upc, locals := { s := s } }, { req := .disable, upc := 2 }] }

theorem test_witness_StepKeepsStepPointersInRange :
    (∀ f ∈ (sWaiting 1 0#32).frames, f.upc < lineCount f.req) ∧
    (nextOf (step { sWaiting 1 0#32 with schedule := [.seq] })).map (fun t => (t.frames, t.outcome)) =
      some ([], some (.ok none)) := by decide

theorem test_witness_MarkedStateIsQuiescent :
    (sEnabling.clkReady = true ∧ { sEnabling with fault := some FaultCode.fSync }.fault = some .fSync) ∧
    ({ sPr with refused := some RefusedCode.role }.fault = none ∧
      { sPr with refused := some RefusedCode.role }.refused = some .role) := by decide

theorem test_witness_NoClockIsRefused : { sPr with clkReady := false }.clkReady = false := by decide

theorem test_witness_FaultOrRefusalVoidsTheStep :
    (nextOf (exec (.wrAddr 0x91#32) sResetting)).map (·.marked) = some true ∧
    (nextOf (exec (.wrCtrla 0x2#32) sPr)).map (·.marked) = some true := by decide

theorem test_witness_ChecksComeInOrder :
    (sEnabling.Live ∧ sEnabling.syncOp ≠ .none ∧ BitVec.extractLsb' 37 2 0xC000000001#40 ≠ 0#2) ∧
    (BitVec.extractLsb' 32 8 0x8000000003#40 = 0x80#8 ∧ BitVec.getLsbD 0x8000000003#40 0 = true ∧
      BitVec.getLsbD 0x8000000003#40 1 = true) ∧
    (State.reset.Live ∧ State.reset.syncOp = .none ∧ State.reset.ctrla.enable = false ∧ State.reset.modeLocked = true ∧
      pers State.reset.ctrla.mode = .none) ∧
    (BitVec.extractLsb' 32 8 0x801003000E#40 = 0x80#8 ∧ BitVec.getLsbD 0x801003000E#40 0 = false ∧
      BitVec.getLsbD 0x801003000E#40 1 = true) :=
  ⟨⟨live_sEnabling, by decide, by decide⟩, by decide, ⟨live_reset, by decide, by decide, by decide, by decide⟩, by decide⟩

theorem live_sWaiting (upc : Nat) (s : Word) : (sWaiting upc s).Live := ⟨rfl, rfl, rfl⟩

/-- A reset request on its way: its last wait has been called. -/
def sWaitingReset (upc : Nat) (a s : Word) : State :=
  { sResetting with
    frames := [{ req := .waitReset, nested := true, upc := upc, locals := { a := a, s := s } }, { req := .reset, upc := 5 }] }

theorem live_sWaitingReset (upc : Nat) (a s : Word) : (sWaitingReset upc a s).Live := ⟨rfl, rfl, rfl⟩

/-- Each line of each wait; an unsuccessful poll; a successful one of a wait handed over by itself, of one whose caller
ends with it (the disable), and of one whose caller's caller goes on (a setter that called the disable). -/
theorem test_witness_WaitsPollUntilClear :
    ((sWaiting 0 0#32).Live ∧ ∃ f rest, (sWaiting 0 0#32).frames = f :: rest ∧ f.req = .waitSync ∧ f.upc = 0) ∧
    ((sWaitingReset 0 0#32 0#32).Live ∧
      ∃ f rest, (sWaitingReset 0 0#32 0#32).frames = f :: rest ∧ f.req = .waitReset ∧ f.upc = 0) ∧
    (∃ f rest, (sWaitingReset 1 1#32 0#32).frames = f :: rest ∧ f.req = .waitReset ∧ f.upc = 1) ∧
    (∃ f rest, (sWaiting 1 0x8000#32).frames = f :: rest ∧ f.req = .waitSync ∧ f.upc = 1 ∧
      true = f.locals.s.getLsbD 15) ∧
    (∃ f rest, (sWaitingReset 2 1#32 0#32).frames = f :: rest ∧ f.req = .waitReset ∧ f.upc = 2 ∧
      true = (f.locals.a.getLsbD 0 || f.locals.s.getLsbD 15)) ∧
    (∃ f rest, { sSpiEn with frames := [{ req := .waitSync, upc := 1 }] }.frames = f :: rest ∧ f.req = .waitSync ∧
      f.upc = 1 ∧ false = f.locals.s.getLsbD 15 ∧ f.nested = false) ∧
    (∃ f rest, (sWaitingReset 2 0#32 0#32).frames = f :: rest ∧ f.req = .waitReset ∧ f.upc = 2 ∧
      false = (f.locals.a.getLsbD 0 || f.locals.s.getLsbD 15) ∧ f.nested = true ∧
      ∃ g below, rest = [] ++ g :: below ∧ lineCount g.req ≤ g.upc + 1 ∧ g.nested = false) ∧
    (∃ f d g : Frame, f.nested = true ∧ f.req = .waitSync ∧ f.upc = 1 ∧ false = f.locals.s.getLsbD 15 ∧
      (∀ h ∈ [d], h.nested = true ∧ lineCount h.req ≤ h.upc + 1) ∧ g.upc + 1 < lineCount g.req ∧
      { sSpiDis with frames := f :: [d, g] }.Live) :=
  ⟨⟨live_sWaiting _ _, _, _, rfl, rfl, rfl⟩, ⟨live_sWaitingReset _ _ _, _, _, rfl, rfl, rfl⟩, ⟨_, _, rfl, rfl, rfl⟩,
    ⟨_, _, rfl, rfl, rfl, by decide⟩, ⟨_, _, rfl, rfl, rfl, by decide⟩, ⟨_, _, rfl, rfl, rfl, by decide, rfl⟩,
    ⟨_, _, rfl, rfl, rfl, by decide, rfl, _, _, rfl, by decide, rfl⟩,
    { req := .waitSync, nested := true, upc := 1 }, { req := .disable, nested := true, upc := 2 },
    { req := .setDordSpi true, upc := 0 }, rfl, rfl, rfl, by decide, by decide, by decide, rfl, rfl, rfl⟩

/-- Both waits, called and handed over by itself, with a synchronisation pending; Q17's limit of two is met by the second
poll and not by the first. -/
theorem test_witness_WaitTimesOutAtItsLimit :
    (∃ f g, (sWaiting 1 0x8000#32).frames = [f] ++ g :: [] ∧ (sWaiting 1 0x8000#32).frames.head? = some f ∧
      (∀ h ∈ [f], h.nested = true) ∧ g.nested = false ∧ f.req = .waitSync ∧ f.upc = 1 ∧
      f.locals.s.getLsbD 15 = true ∧ ¬ 2 ≤ f.polls + 1 ∧ (sWaiting 1 0x8000#32).syncOp ≠ .none) ∧
    (∃ f : Frame, { sResetting with frames := [f] }.Live ∧ [f] = [] ++ f :: [] ∧ [f].head? = some f ∧ f.nested = false ∧
      f.req = .waitReset ∧ f.upc = 2 ∧ f.locals.a.getLsbD 0 = true ∧ 2 ≤ f.polls + 1) ∧
    isControlWrite (.wrBaud 0#32) = true :=
  ⟨⟨_, _, rfl, rfl, by decide, rfl, rfl, rfl, by decide, by decide, by decide⟩,
    ⟨{ req := .waitReset, upc := 2, locals := { a := 1#32 }, polls := 1 }, ⟨rfl, rfl, rfl⟩, rfl, rfl, rfl, rfl, rfl,
      by decide, by decide⟩, by decide⟩

/-- No hypothesis on a live state that keeps the invariants reads the schedule. -/
theorem live_schedule {s : State} (h : s.Live) (l : List Turn) : ({ s with schedule := l } : State).Live :=
  ⟨h.clk, h.noFault, h.noRefusal⟩

theorem inv_schedule {s : State} (h : s.Inv) (l : List Turn) : ({ s with schedule := l } : State).Inv :=
  ⟨h.i1, h.i2, h.i3, h.i4, h.i5, h.i6, h.i7, h.i8, h.i9, h.locked, h.role⟩

theorem test_witness_EnableAndDisableRequests :
    let s : State := { sSpiDis with schedule := [.request .enable, .seq, .seq, .seq, .sync, .seq, .seq] }
    let u : State := { sSpiEn with schedule := [.request .disable, .seq, .seq, .seq, .sync, .seq, .seq] }
    (s.Live ∧ s.Inv ∧ s.syncOp = .none ∧ s.frames = [] ∧ s.ctrla.enable = false ∧ pers s.ctrla.mode ≠ .none) ∧
    (u.Live ∧ u.Inv ∧ u.syncOp = .none ∧ u.frames = [] ∧ u.ctrla.enable = true) :=
  ⟨⟨live_schedule live_sSpiDis _, inv_schedule inv_sSpiDis _, by decide, by decide, by decide, by decide⟩,
    live_schedule live_sSpiEn _, inv_schedule inv_sSpiEn _, by decide, by decide, by decide⟩

theorem test_witness_ResetRequestReachesPostreset :
    let s : State := { sSpiDis with schedule := .request .reset :: resetTurns false }
    let u : State := { sSpiEn with schedule := .request .reset :: resetTurns true }
    (s.Live ∧ s.Inv ∧ s.syncOp = .none ∧ s.frames = [] ∧ s.schedule = .request .reset :: resetTurns s.ctrla.enable) ∧
    (u.Live ∧ u.Inv ∧ u.syncOp = .none ∧ u.frames = [] ∧ u.schedule = .request .reset :: resetTurns u.ctrla.enable) :=
  ⟨⟨live_schedule live_sSpiDis _, inv_schedule inv_sSpiDis _, by decide, by decide, by decide⟩,
    live_schedule live_sSpiEn _, inv_schedule inv_sSpiEn _, by decide, by decide, by decide⟩

/-- The three that issue nothing; an initialisation with enable from a disabled block and from an enabled one (the free
`SPI_DEFAULTS` among the settings); the two ends. -/
theorem test_witness_FrontEndRequests :
    let s : State := { sSpiEn with schedule := [.request (.setBaudSpi 0), .seq] }
    let u : State := { sSpiEn with spiInited := true, schedule := [.request .beginSpi, .seq] }
    let v : State := { sPr with schedule := [.request .endSpi, .seq] }
    let first : State := { sSpiDis with
      schedule := .request .beginSpi :: (List.replicate 4 .seq ++ (resetTurns false ++
        (List.replicate 4 .seq ++ (waitedWrite ++ [.seq])))) }
    let again : State := { sSpiEn with
      schedule := .request (.beginI2cs 0x48#7 true) :: (List.replicate 2 .seq ++ (resetTurns true ++
        (List.replicate 3 .seq ++ (waitedWrite ++ [])))) }
    let stop : State := { sSpiEn with
      spiInited := true, schedule := .request .endSpi :: (List.replicate 2 .seq ++ (resetTurns true ++ [.seq])) }
    (s.Live ∧ s.frames = []) ∧ (u.Live ∧ u.frames = [] ∧ u.spiInited = true) ∧
    (v.Live ∧ v.frames = [] ∧ v.spiInited = false) ∧
    (first.Live ∧ first.frames = [] ∧ first.Inv ∧ first.syncOp = .none ∧ first.spiInited = false ∧
      first.ctrla.enable = false) ∧
    (again.Live ∧ again.frames = [] ∧ again.Inv ∧ again.syncOp = .none ∧ again.ctrla.enable = true ∧
      ∃ adr : AddrReg, Request.beginI2cs 0x48#7 true = .beginI2cs adr.addr adr.gencen) ∧
    (stop.Live ∧ stop.frames = [] ∧ stop.Inv ∧ stop.syncOp = .none ∧ stop.spiInited = true ∧
      stop.ctrla.enable = true) :=
  ⟨⟨⟨rfl, rfl, rfl⟩, rfl⟩, ⟨⟨rfl, rfl, rfl⟩, rfl, rfl⟩, ⟨⟨rfl, rfl, rfl⟩, rfl, rfl⟩,
    ⟨⟨rfl, rfl, rfl⟩, rfl, inv_schedule inv_sSpiDis _, rfl, rfl, by decide⟩,
    ⟨⟨rfl, rfl, rfl⟩, rfl, inv_schedule inv_sSpiEn _, rfl, by decide, { addr := 0x48#7, gencen := true }, rfl⟩,
    ⟨rfl, rfl, rfl⟩, rfl, inv_of (by decide), rfl, rfl, by decide⟩

theorem test_witness_IsMasterReadsTheMode :
    let s : State := { sI2cmEn with schedule := [.request .isMaster, .seq, .seq] }
    s.Live ∧ s.frames = [] := ⟨⟨rfl, rfl, rfl⟩, rfl⟩

theorem test_witness_WrongRoleIsRefused :
    let s : State := { sSpiEn with schedule := [.request (.command 3#2), .seq, .seq, .seq] }
    s.Live ∧ s.frames = [] ∧ s.ctrla.mode ≠ 4#3 ∧ s.ctrla.mode ≠ 5#3 := ⟨⟨rfl, rfl, rfl⟩, rfl, by decide, by decide⟩

theorem test_witness_AckAndNackRequests :
    let s : State := { sI2cmEn with schedule := [.request .nack, .seq, .seq, .seq, .seq, .seq] }
    let u : State := { sI2csEn with schedule := [.request .ack, .seq, .seq, .seq, .seq, .seq] }
    (s.Live ∧ s.syncOp = .none ∧ s.frames = [] ∧ s.ctrla.mode = 5#3) ∧
    (u.Live ∧ u.syncOp = .none ∧ u.frames = [] ∧ u.ctrla.mode = 4#3) :=
  ⟨⟨⟨rfl, rfl, rfl⟩, rfl, rfl, by decide⟩, ⟨rfl, rfl, rfl⟩, rfl, rfl, by decide⟩

/-- The requests of R126 to R129 from a disabled and from an enabled block; the operands are Q3's, R127's, R128's and
R129's. -/
theorem test_witness_InitRequestsConfigureTheBlock :
    let s : State := { sSpiDis with
      schedule := .request (.initI2cs 0x48#7 true) :: .seq :: (resetTurns false ++ List.replicate 2 .seq) }
    let u : State := { sI2csEn with
      schedule := .request (.initSpi ⟨3#6, false, false, true, 0#3, 5#16⟩) :: .seq ::
        (resetTurns true ++ List.replicate 3 .seq) }
    (s.Live ∧ s.Inv ∧ s.syncOp = .none ∧ s.frames = [] ∧ s.ctrla.enable = false) ∧
    (u.Live ∧ u.Inv ∧ u.syncOp = .none ∧ u.frames = [] ∧ u.ctrla.enable = true) ∧
    (∃ adr : AddrReg, Request.initI2cs 0x48#7 true = .initI2cs adr.addr adr.gencen) ∧
    (∃ baud, Request.initI2cm 0x00E8#16 = .initI2cm baud) ∧
    (∃ st, Request.initSpi ⟨3#6, false, false, true, 0#3, 5#16⟩ = .initSpi st ∧ (5#16 : BitVec 16) = st.baudval) ∧
    (∃ baud, Request.initUart 0#3 0x11#6 1#4 true 0#3 false false 0xF62B#16 =
      .initUart 0#3 0x11#6 1#4 true 0#3 false false baud) :=
  ⟨⟨live_schedule live_sSpiDis _, inv_schedule inv_sSpiDis _, by decide, by decide, by decide⟩,
    ⟨live_schedule live_sI2csEn _, inv_schedule inv_sI2csEn _, by decide, by decide, by decide⟩,
    ⟨{ addr := 0x48#7, gencen := true }, rfl⟩, ⟨_, rfl⟩, ⟨_, rfl, rfl⟩, _, rfl⟩

theorem test_witness_ProtectedSettersMutateWhileDisabled :
    let s : State := { sSpiEn with
      schedule := .request (.setBaudSpi 1) ::
        (List.replicate 5 .seq ++ .sync :: (List.replicate 7 .seq ++ [.sync, .seq, .seq])) }
    s.Live ∧ s.Inv ∧ s.syncOp = .none ∧ s.frames = [] ∧ s.ctrla.enable = true ∧ (1 : Nat) ≠ 0 :=
  ⟨live_schedule live_sSpiEn _, inv_schedule inv_sSpiEn _, by decide, by decide, by decide, by decide⟩

theorem test_witness_CommandRequestDeliversTheCommand :
    let turns : List Turn := .request (.command 3#2) :: (List.replicate 6 .seq ++ [.sync, .seq, .seq])
    let s : State := { sI2cmEn with schedule := turns }
    let u : State := { sI2csEn with schedule := turns }
    (s.Live ∧ s.Inv ∧ s.syncOp = .none ∧ s.frames = [] ∧ s.grant = .i2cm ∧ (3#2 : BitVec 2) ≠ 0#2) ∧
    (u.Live ∧ u.Inv ∧ u.syncOp = .none ∧ u.frames = [] ∧ u.grant = .i2cs) :=
  ⟨⟨live_schedule live_sI2cmEn _, inv_schedule inv_sI2cmEn _, by decide, by decide, by decide, by decide⟩,
    live_schedule live_sI2csEn _, inv_schedule inv_sI2csEn _, by decide, by decide, by decide⟩

/-- Q9 refused at line 1 of an enable; a control write of a request that meets a pending synchronisation. -/
theorem test_witness_FaultEndsTheRequest :
    let s : State := { State.reset with frames := [{ req := .enable, upc := 1 }] }
    let u : State := { sEnabling with frames := [{ req := .enable, upc := 1 }] }
    (s.Live ∧ (expansion {} false .enable)[1]? = some (.txn (.wrCtrla 0x00000002#32)) ∧
      (nextOf (exec (.wrCtrla 0x00000002#32) s)).map (fun t => (t.fault, t.refused)) = some (none, some .enableNone)) ∧
    (u.Live ∧ (nextOf (exec (.wrCtrla 0x00000002#32) u)).map (·.fault) = some (some .fSync)) :=
  ⟨⟨⟨rfl, rfl, rfl⟩, by decide, by decide⟩, ⟨rfl, rfl, rfl⟩, by decide⟩

/-- The four kinds of turn. -/
theorem test_witness_StepRunsTheTurn :
    ({ sPr with schedule := [.host 0x8000000001#40] }.schedule = [.host 0x8000000001#40] ∧
      decode 0x8000000001#40 = .ok (.wrCtrla 0x00000001#32) ∧ Instr.wellFormed (.wrCtrla 0x00000001#32) = true) ∧
    { sEnabling with schedule := [.sync] }.schedule = [.sync] ∧
    { sPr with schedule := [.request .enable] }.schedule = [.request .enable] ∧
    { sPr with schedule := [.seq] }.schedule = [.seq] := by decide

theorem test_witness_PlacedWordRunsNext : decodeTableWord 40 0x801003000E = some (.wrCtrla 0x1003000E#32) := by decide

/-- Nothing to do; a synchronisation alone; a request alone; both. -/
theorem test_witness_StepWithNoTurnGiven :
    (sPr.Live ∧ sPr.schedule = [] ∧ sPr.frames = [] ∧ sPr.syncOp = .none) ∧
    (sEnabling.schedule = [] ∧ sEnabling.frames = [] ∧ sEnabling.syncOp ≠ .none) ∧
    ({ sSpiDis with frames := [{ req := .enable }] }.schedule = [] ∧
      { sSpiDis with frames := [{ req := .enable }] }.frames ≠ [] ∧
      { sSpiDis with frames := [{ req := .enable }] }.syncOp = .none) ∧
    ((sWaiting 0 0#32).schedule = [] ∧ (sWaiting 0 0#32).frames ≠ [] ∧ (sWaiting 0 0#32).syncOp ≠ .none) :=
  ⟨⟨live_sPr, by decide, by decide, by decide⟩, by decide, by decide, by decide⟩

theorem test_witness_InstancesAreIndependent :
    (({ instances := [sEnabling, sPr] } : Chip).stepAt 0).map (fun r => match r with
      | .next c => c.instances.map (·.seqState)
      | .fault _ => []
      | .refused _ => []) = some [.enabled, .postreset] := by decide

end Sys2Proof.Tests
end

section
/-! The control-register writes (R70 to R74). A live state answers a checked write with the mark alone while a
synchronisation is pending, and with the body of the write otherwise; each body has an equation per case of its rule. -/

namespace Sys2Proof.Machine

/-! Marks set in a live state, where neither is set yet -/

theorem State.Live.raise_eq {s : State} (h : s.Live) (c : FaultCode) : s.raise c = { s with fault := some c } := by
  simp [State.raise, h.noFault]

theorem State.Live.refuse_eq {s : State} (h : s.Live) (c : RefusedCode) :
    s.refuse c = { s with refused := some c } := by
  simp [State.refuse, h.noRefusal]

/-! The guard and the sync check, which all four writes begin with (R70) -/

theorem checkedWrite_idle {s : State} (h : s.Live) (hi : s.syncOp = .none) (k : Result) :
    whileLive s (syncCheck s k) = k := by
  rw [whileLive_live h, syncCheck_idle hi]

theorem checkedWrite_pending {s : State} (h : s.Live) (hp : s.syncOp ≠ .none) (k : Result) :
    whileLive s (syncCheck s k) = .next { s with fault := some .fSync } := by
  rw [whileLive_live h, syncCheck_busy hp, h.raise_eq]

/-- Every control write makes the sync check first, so its body is never reached while one is pending (R70). -/
theorem exec_controlWrite_pending {i : Instr} {s : State} (h : s.Live) (hp : s.syncOp ≠ .none)
    (hc : isControlWrite i = true) : exec i s = .next { s with fault := some .fSync } := by
  cases i with
  | wrCtrla d => exact checkedWrite_pending h hp _
  | wrCtrlb d => exact checkedWrite_pending h hp _
  | wrBaud d => exact checkedWrite_pending h hp _
  | wrAddr d => exact checkedWrite_pending h hp _
  | _ => cases hc

/-- A transaction that is no control write reaches the read results, the history and the draws alone (R80 to R91). -/
theorem exec_frame_of_not_controlWrite {i : Instr} {s t : State} (hc : isControlWrite i = false)
    (h : exec i s = .next t) : t = { s with reads := t.reads, hist := t.hist, draws := t.draws } := by
  cases i with
  | wrCtrla d => cases hc
  | wrCtrlb d => cases hc
  | wrBaud d => cases hc
  | wrAddr d => cases hc
  | rdEng0 => cases (whileLive_next h).2; rw [forwardRead_eq]; rfl
  | rdEng1 => cases (whileLive_next h).2; rw [forwardRead_eq]; rfl
  | rdEng2 => cases (whileLive_next h).2; rw [forwardRead_eq]; rfl
  | wrStatus d => cases (whileLive_next h).2; rw [forwardWrite_eq]
  | wrEng0 d => cases (whileLive_next h).2; rw [forwardWrite_eq]
  | wrEng1 d => cases (whileLive_next h).2; rw [forwardWrite_eq]
  | wrEng2 d => cases (whileLive_next h).2; rw [forwardWrite_eq]
  | _ => cases (whileLive_next h).2; rfl

/-- Settles O5: the four control writes fault at the sync check; the frame of every other transaction leaves the marks
and the pending synchronisation alone. -/
theorem controlWriteWhileSyncingFaults : Obligations.ControlWriteWhileSyncingFaults := by
  intro i s h hp
  refine ⟨exec_controlWrite_pending h hp, fun hc => ?_⟩
  obtain ⟨t, ht⟩ := exec_completes i h
  have e := exec_frame_of_not_controlWrite hc ht
  refine ⟨t, ht, ?_, ?_, ?_⟩
  · rw [e]; exact h.noFault
  · rw [e]; exact h.noRefusal
  · rw [e]

/-! The body of a CTRLA write, case by case (R71) -/

section
variable {d : Word} {s : State}

theorem writeCtrla_reset (hr : wSwrst d = true) : writeCtrla d s = startReset s := by
  simp [writeCtrla, hr]

theorem writeCtrla_stay (hr : wSwrst d = false) (he : s.ctrla.enable = true) (hw : wEnable d = true) :
    writeCtrla d s = s := by
  simp [writeCtrla, hr, he, hw]

theorem writeCtrla_disable (hr : wSwrst d = false) (he : s.ctrla.enable = true) (hw : wEnable d = false) :
    writeCtrla d s = startDisable s := by
  simp [writeCtrla, hr, he, hw]

theorem writeCtrla_refuse (hr : wSwrst d = false) (he : s.ctrla.enable = false) (hw : wEnable d = true)
    (hn : pers (modeAfter d s) = .none) : writeCtrla d s = s.refuse .enableNone := by
  simp [writeCtrla, hr, he, hw, hn]

theorem writeCtrla_enable (hr : wSwrst d = false) (he : s.ctrla.enable = false) (hw : wEnable d = true)
    (hn : pers (modeAfter d s) ≠ .none) : writeCtrla d s = startEnable (configureA d s) := by
  simp [writeCtrla, hr, he, hw, hn]

theorem writeCtrla_configure (hr : wSwrst d = false) (he : s.ctrla.enable = false) (hw : wEnable d = false) :
    writeCtrla d s = configureA d s := by
  simp [writeCtrla, hr, he, hw]

theorem exec_wrCtrla_idle (h : s.Live) (hi : s.syncOp = .none) : exec (.wrCtrla d) s = .next (writeCtrla d s) :=
  checkedWrite_idle h hi _

end

/-- Settles O6: past the sync check, one equation of `writeCtrla` for each clause; `mode` is `modeAfter d s`. -/
theorem writeCtrlaFollowsRule : Obligations.WriteCtrlaFollowsRule := by
  intro d s mode h hm
  replace hm : mode = modeAfter d s := hm
  subst hm
  refine ⟨fun hp => exec_controlWrite_pending h hp rfl, fun hi hr => ?reset, fun hi hr he hw => ?stay,
    fun hi hr he hw => ?disable, fun hi hr he hw hn => ?refuse, fun hi hr he hw hn => ?enable,
    fun hi hr he hw => ?configure⟩ <;> rw [exec_wrCtrla_idle h hi]
  case reset => rw [writeCtrla_reset hr]; rfl
  case stay => rw [writeCtrla_stay hr he hw]
  case disable => rw [writeCtrla_disable hr he hw]; rfl
  case refuse => rw [writeCtrla_refuse hr he hw hn, h.refuse_eq]
  case enable => rw [writeCtrla_enable hr he hw hn]; rfl
  case configure => rw [writeCtrla_configure hr he hw]; rfl

/-! The body of a CTRLB write: its configuration, then its command (R72) -/

/-- The value CTRLB holds after a write: CHSIZE, SBMODE and PMODE are kept while enabled (R72). -/
def ctrlbAfter (d : Word) (s : State) : CtrlB :=
  if s.ctrla.enable = true then { s.ctrlb with ackact := wAckact d }
  else { chsize := wChsize d, sbmode := wSbmode d, pmode := wPmode d, ackact := wAckact d }

theorem configureB_eq (d : Word) (s : State) : configureB d s = { s with ctrlb := ctrlbAfter d s } := by
  unfold configureB ctrlbAfter
  split <;> rfl

@[simp] theorem configureB_grant (d : Word) (s : State) : (configureB d s).grant = s.grant := by
  rw [configureB_eq]
  rfl

theorem roleOf_eq_none_iff (p : Personality) : roleOf p = none ↔ p ≠ .i2cm ∧ p ≠ .i2cs := by
  cases p <;> simp [roleOf]

theorem latchCommand_granted {code : BitVec 2} {s : State} {role : Role} (hg : roleOf s.grant = some role)
    (hc : code ≠ 0#2) : latchCommand code s = { s with cmdPending := some (role, code), syncOp := .cmd } := by
  simp [latchCommand, hg, hc]

theorem latchCommand_dropped {code : BitVec 2} {s : State} (h : code = 0#2 ∨ roleOf s.grant = none) :
    latchCommand code s = s := by
  rcases latchCommand_cases code s with e | ⟨role, hg, hc, -⟩
  · exact e
  · simp [hg, hc] at h

theorem exec_wrCtrlb_idle {s : State} (h : s.Live) (hi : s.syncOp = .none) (d : Word) :
    exec (.wrCtrlb d) s = .next (latchCommand (wCmd d) (configureB d s)) :=
  checkedWrite_idle h hi _

theorem exec_wrCtrlb_latches {d : Word} {s : State} {role : Role} (h : s.Live) (hi : s.syncOp = .none)
    (hc : wCmd d ≠ 0#2) (hg : roleOf s.grant = some role) :
    exec (.wrCtrlb d) s = .next { s with
      ctrlb := ctrlbAfter d s, cmdPending := some (role, wCmd d), syncOp := .cmd } := by
  rw [← configureB_grant d] at hg
  rw [exec_wrCtrlb_idle h hi, latchCommand_granted hg hc, configureB_eq]

theorem exec_wrCtrlb_drops {d : Word} {s : State} (h : s.Live) (hi : s.syncOp = .none)
    (hd : wCmd d = 0#2 ∨ roleOf s.grant = none) :
    exec (.wrCtrlb d) s = .next { s with ctrlb := ctrlbAfter d s } := by
  rw [← configureB_grant d] at hd
  rw [exec_wrCtrlb_idle h hi, latchCommand_dropped hd, configureB_eq]

/-- Settles O7: a command is latched for the role of the grant, which the configuration of CTRLB leaves as it is. -/
theorem writeCtrlbFollowsRule : Obligations.WriteCtrlbFollowsRule := by
  intro d s b h hb
  replace hb : b = ctrlbAfter d s := hb
  subst hb
  refine ⟨fun hp => exec_controlWrite_pending h hp rfl, fun hi hc hg => ?master, fun hi hc hg => ?slave,
    fun hi hd => ?dropped⟩
  case master => exact exec_wrCtrlb_latches h hi hc (by rw [hg]; rfl)
  case slave => exact exec_wrCtrlb_latches h hi hc (by rw [hg]; rfl)
  case dropped => exact exec_wrCtrlb_drops h hi (hd.imp_right (roleOf_eq_none_iff s.grant).2)

/-! BAUD and ADDR: stored while disabled, ignored while enabled (R73, R74) -/

theorem exec_wrBaud_idle {s : State} (h : s.Live) (hi : s.syncOp = .none) (d : Word) :
    exec (.wrBaud d) s = .next (if s.ctrla.enable then s else { s with baud := wBaud d }) :=
  checkedWrite_idle h hi _

theorem exec_wrAddr_idle {s : State} (h : s.Live) (hi : s.syncOp = .none) (d : Word) :
    exec (.wrAddr d) s =
      .next (if s.ctrla.enable then s else { s with addr := { gencen := wGencen d, addr := wAddr d } }) :=
  checkedWrite_idle h hi _

/-- Settles O8: past the sync check ENABLE alone decides. -/
theorem writeBaudFollowsRule : Obligations.WriteBaudFollowsRule := by
  intro d s h
  refine ⟨fun hp => exec_controlWrite_pending h hp rfl, fun hi he => ?disabled, fun hi he => ?enabled⟩ <;>
    rw [exec_wrBaud_idle h hi]
  case disabled => rw [if_neg (ne_true_of_eq_false he)]; rfl
  case enabled => rw [if_pos he]

/-- Settles O9: past the sync check ENABLE alone decides. -/
theorem writeAddrFollowsRule : Obligations.WriteAddrFollowsRule := by
  intro d s h
  refine ⟨fun hp => exec_controlWrite_pending h hp rfl, fun hi he => ?disabled, fun hi he => ?enabled⟩ <;>
    rw [exec_wrAddr_idle h hi]
  case disabled => rw [if_neg (ne_true_of_eq_false he)]; rfl
  case enabled => rw [if_pos he]

end Sys2Proof.Machine
end

section
/-! Reads and the engine window (R80 to R91). No transaction of this family makes the sync check: in a live state a read
appends its word to the read results, and a forwarded access appends its event to the history while an engine is
granted. What remains of a read's rule is the bits of its register image. -/

namespace Sys2Proof.Machine

/-! Bits of a register image outside a flag or a field read 0 -/

theorem flagAt_extract_outside (v : Bool) {i j n : Nat} (h : i < j ∨ j + n ≤ i) :
    (flagAt v i).extractLsb' j n = 0#n := by
  apply BitVec.eq_of_getLsbD_eq; intro k hk
  have hne : i ≠ j + k := by omega
  simp [flagAt_getLsbD, hne]

theorem fieldAt_extract_outside {w : Nat} (v : BitVec w) {i j n : Nat} (h : j + n ≤ i ∨ i + w ≤ j) :
    (fieldAt v i).extractLsb' j n = 0#n := by
  apply BitVec.eq_of_getLsbD_eq; intro k hk
  rw [BitVec.getLsbD_extractLsb', fieldAt_getLsbD, BitVec.getLsbD_zero]
  rcases h with below | above
  · have hlt : ¬ i ≤ j + k := by omega
    simp [hlt]
  · have hge : w ≤ j + k - i := by omega
    simp [BitVec.getLsbD_of_ge v _ hge]

/-- The reserved bits of CTRLA (R22, R80). -/
theorem ctrlaWord_reserved (c : CtrlA) :
    (ctrlaWord c).extractLsb' 5 8 = 0#8 ∧ (ctrlaWord c).extractLsb' 22 2 = 0#2 ∧ (ctrlaWord c).getLsbD 31 = false := by
  refine ⟨?_, ?_, ?_⟩
  · simp [ctrlaWord, BitVec.extractLsb'_or, flagAt_extract_outside, fieldAt_extract_outside]
  · simp [ctrlaWord, BitVec.extractLsb'_or, flagAt_extract_outside, fieldAt_extract_outside]
  · simp [ctrlaWord_getElem]

/-- The reserved bits of CTRLB, those of CMD aside (R23, R81). -/
theorem ctrlbWord_reserved (c : CtrlB) :
    (ctrlbWord c).extractLsb' 3 3 = 0#3 ∧ (ctrlbWord c).extractLsb' 7 6 = 0#6 ∧
      (ctrlbWord c).extractLsb' 14 2 = 0#2 ∧ (ctrlbWord c).extractLsb' 19 13 = 0#13 := by
  refine ⟨?_, ?_, ?_, ?_⟩ <;>
    simp [ctrlbWord, BitVec.extractLsb'_or, flagAt_extract_outside, fieldAt_extract_outside]

/-- The reserved bits of ADDR (R25, R83). -/
theorem addrWord_reserved (r : AddrReg) : (addrWord r).extractLsb' 8 24 = 0#24 := by
  simp [addrWord, BitVec.extractLsb'_or, flagAt_extract_outside, fieldAt_extract_outside]

/-- The bits of STATUS above SYNCBUSY (R26, R84). -/
theorem statusWord_reserved (busy : Bool) (e : BitVec 15) : (statusWord busy e).extractLsb' 16 16 = 0#16 := by
  simp [statusWord, BitVec.extractLsb'_or, flagAt_extract_outside, fieldAt_extract_outside]

theorem baudWord_eq_setWidth (b : BitVec 16) : baudWord b = b.setWidth 32 := by
  simp [baudWord, fieldAt]

theorem syncBusy_iff (s : State) : s.syncBusy = true ↔ s.syncOp ≠ .none := by
  simp [State.syncBusy]

/-! What each transaction of this family answers in a live state -/

section
variable {s : State}

theorem exec_rdCtrla_live (h : s.Live) : exec .rdCtrla s = .next (s.answer (ctrlaWord s.ctrla)) :=
  whileLive_live h _

theorem exec_rdCtrlb_live (h : s.Live) : exec .rdCtrlb s = .next (s.answer (ctrlbWord s.ctrlb)) :=
  whileLive_live h _

theorem exec_rdBaud_live (h : s.Live) : exec .rdBaud s = .next (s.answer (baudWord s.baud)) :=
  whileLive_live h _

theorem exec_rdAddr_live (h : s.Live) : exec .rdAddr s = .next (s.answer (addrWord s.addr)) :=
  whileLive_live h _

theorem exec_rdStatus_live (h : s.Live) : exec .rdStatus s =
    .next ((s.answer (statusWord s.syncBusy (Config.engStatus s.handle s.draws))).drawn) :=
  whileLive_live h _

/-- The three forwarded reads, by their offset (R85 to R87). -/
theorem engineRead_live (h : s.Live) (o : BitVec 5) : engineRead o s = .next { s with
    reads := s.reads ++ [Config.engRdata s.handle s.draws], draws := s.draws + 1,
    hist := if s.grant = .none then s.hist else s.hist ++ [.engRead s.grant o] } := by
  rw [engineRead, whileLive_live h, forwardRead, State.drawn_grant, State.answer_grant]
  split <;> rfl

/-- The four forwarded writes, by their offset and the data forwarded (R88 to R91). -/
theorem engineWrite_live (h : s.Live) (o : BitVec 5) (d : Word) : engineWrite o d s = .next { s with
    hist := if s.grant = .none then s.hist else s.hist ++ [.engWrite s.grant o d] } := by
  rw [engineWrite, whileLive_live h, forwardWrite]
  split <;> rfl

end

/-- Settles O12: the word is the image of CTRLA, whose fields are those a write would cut out of it. -/
theorem readCtrlaFollowsRule : Obligations.ReadCtrlaFollowsRule := by
  intro s h
  obtain ⟨gap5, gap22, gap31⟩ := ctrlaWord_reserved s.ctrla
  exact ⟨ctrlaWord s.ctrla, exec_rdCtrla_live h, wSwrst_ctrlaWord _, wEnable_ctrlaWord _, wMode_ctrlaWord _, gap5,
    wSampr_ctrlaWord _, wPads_ctrlaWord _, gap22, wForm_ctrlaWord _, wCpha_ctrlaWord _, wCpol_ctrlaWord _,
    wDord_ctrlaWord _, gap31⟩

/-- Settles O13: the word is the image of CTRLB, which holds no CMD, so a pending command does not show in it. -/
theorem readCtrlbFollowsRule : Obligations.ReadCtrlbFollowsRule := by
  intro s h
  obtain ⟨gap3, gap7, gap14, gap19⟩ := ctrlbWord_reserved s.ctrlb
  exact ⟨ctrlbWord s.ctrlb, exec_rdCtrlb_live h, wChsize_ctrlbWord _, gap3, wSbmode_ctrlbWord _, gap7,
    wPmode_ctrlbWord _, gap14, wCmd_ctrlbWord _, wAckact_ctrlbWord _, gap19⟩

/-- Settles O14: the image of BAUD is its value extended with zeros. -/
theorem readBaudFollowsRule : Obligations.ReadBaudFollowsRule := by
  intro s h
  rw [exec_rdBaud_live h, baudWord_eq_setWidth]; rfl

/-- Settles O15: the word is the image of ADDR. -/
theorem readAddrFollowsRule : Obligations.ReadAddrFollowsRule := by
  intro s h
  exact ⟨addrWord s.addr, exec_rdAddr_live h, wGencen_addrWord _, wAddr_addrWord _, addrWord_reserved _⟩

/-- Settles O16: SYNCBUSY over the value drawn, with one draw counted. -/
theorem readStatusFollowsRule : Obligations.ReadStatusFollowsRule := by
  intro s h
  refine ⟨_, s.draws + 1, exec_rdStatus_live h, ?_, statusWord_engstat _ _, statusWord_reserved _ _⟩
  rw [statusWord_bit15, syncBusy_iff]

/-- Settles O17: the shared shape of the three forwarded reads, at their three offsets. -/
theorem forwardedReadsFollowRule : Obligations.ForwardedReadsFollowRule := by
  intro s h
  exact ⟨s.draws + 1, engineRead_live h _, engineRead_live h _, engineRead_live h _⟩

/-- Settles O18: the shared shape of the four forwarded writes, at their four offsets. -/
theorem forwardedWritesFollowRule : Obligations.ForwardedWritesFollowRule := by
  intro d s h
  exact ⟨engineWrite_live h _ _, engineWrite_live h _ _, engineWrite_live h _ _, engineWrite_live h _ _⟩

end Sys2Proof.Machine
end

section
/-! The synchroniser and the arbiter (R100 to R107). In a live state a turn of SYNC completes what is pending, one
equation for each of the four cases. What remains of a case's rule is what the derived values make of the state it
leaves: `seq_state` with nothing pending, the grant, and the engine enables. -/

namespace Sys2Proof.Machine

section
variable {s : State}

/-! `seq_state` with nothing pending (R29) -/

theorem seqState_enabled (hi : s.syncOp = .none) (he : s.ctrla.enable = true) : s.seqState = .enabled := by
  simp [State.seqState, hi, he]

theorem seqState_disabled (hi : s.syncOp = .none) (he : s.ctrla.enable = false) (hl : s.modeLocked = true) :
    s.seqState = .disabled := by
  simp [State.seqState, hi, he, hl]

theorem seqState_postreset (hi : s.syncOp = .none) (he : s.ctrla.enable = false) (hl : s.modeLocked = false)
    (hm : pers s.ctrla.mode = .none) : s.seqState = .postreset := by
  simp [State.seqState, hi, he, hl, hm]

/-- Exactly one engine enable is 1 while an engine is granted, and none otherwise (R32, R105). -/
theorem engineEnables_count (s : State) :
    [s.enUart, s.enSpi, s.enI2cm, s.enI2cs].count true = if s.grant = .none then 0 else 1 := by
  unfold State.enUart State.enSpi State.enI2cm State.enI2cs
  cases s.grant <;> rfl

/-! What a turn of SYNC does, by what is pending (R100) -/

theorem syncStep_reset (h : s.Live) (hp : s.syncOp = .reset) : syncStep s = .next (completeReset s) := by
  rw [syncStep, whileLive_live h, syncComplete, hp]

theorem syncStep_enable (h : s.Live) (hp : s.syncOp = .enable) : syncStep s = .next (completeEnable s) := by
  rw [syncStep, whileLive_live h, syncComplete, hp]

theorem syncStep_disable (h : s.Live) (hp : s.syncOp = .disable) : syncStep s = .next (completeDisable s) := by
  rw [syncStep, whileLive_live h, syncComplete, hp]

theorem syncStep_cmd (h : s.Live) (hp : s.syncOp = .cmd) : syncStep s = .next (completeCmd s) := by
  rw [syncStep, whileLive_live h, syncComplete, hp]

/-- A completed reset, field by field: the release is in the history only if an engine was granted (R101). -/
theorem completeReset_eq (s : State) : completeReset s = { s with
    ctrla := {}, ctrlb := {}, baud := 0#16, addr := {},
    enEff := false, modeLocked := false, cmdPending := none, syncOp := .none,
    hist := if s.enEff = true then s.hist ++ [.release (pers s.ctrla.mode), .engReset]
            else s.hist ++ [.engReset] } := by
  unfold completeReset
  split
  · simp [State.emit]
  · rfl

/-- A completed command, with what was latched (R104). -/
theorem completeCmd_latched {role : Role} {code : BitVec 2} (hc : s.cmdPending = some (role, code)) :
    completeCmd s = { s with cmdPending := none, syncOp := .none, hist := s.hist ++ [.cmd role code] } := by
  rw [completeCmd, hc]; rfl

end

/-- Settles O24: the cleared MODE is 0, which selects no personality, so the unlocked block is POSTRESET. -/
theorem syncCompleteReset : Obligations.SyncCompleteReset := by
  intro s h hp
  refine ⟨completeReset s, syncStep_reset h hp, completeReset_eq s, ?_⟩
  rw [completeReset_eq]
  exact ⟨seqState_postreset rfl rfl rfl rfl, rfl, rfl⟩

/-- Settles O25: a pending enable left ENABLE set, so MODE selects a personality, and that one is granted. -/
theorem syncCompleteEnable : Obligations.SyncCompleteEnable := by
  intro s h inv hp
  obtain ⟨he, -⟩ := inv.i7 hp
  obtain ⟨-, hm⟩ := inv.i3 he
  have hg : (completeEnable s).grant = pers s.ctrla.mode := rfl
  have hn : (completeEnable s).grant ≠ .none := hg ▸ hm
  exact ⟨completeEnable s, syncStep_enable h hp, rfl, hg, hn, seqState_enabled rfl he, rfl,
    by rw [engineEnables_count, if_neg hn]⟩

/-- Settles O26: while the disable was pending the block was still granted, so MODE is locked, and it stays so. -/
theorem syncCompleteDisable : Obligations.SyncCompleteDisable := by
  intro s h inv hp
  obtain ⟨he, hg⟩ := inv.i8 hp
  have hl : s.modeLocked = true := inv.locked hg
  exact ⟨completeDisable s, syncStep_disable h hp, rfl, rfl, hl, seqState_disabled rfl he hl, rfl⟩

/-- Settles O27: the command latched at the write is the one delivered. -/
theorem syncCompleteCommand : Obligations.SyncCompleteCommand := by
  intro s role code h hp hc
  exact ⟨completeCmd s, syncStep_cmd h hp, completeCmd_latched hc, rfl⟩

end Sys2Proof.Machine
end

section
/-! Hardware reset (R170). The stored values stand in `State.reset` itself; the two derived ones follow from them. -/

namespace Sys2Proof.Machine

/-- The arbiter grants nothing while no enable has taken effect (R29, R105). -/
theorem grant_none_of_enEff {s : State} (h : s.enEff = false) : s.grant = .none := by
  simp [State.grant, h]

/-- Settles O32: the stored values are those `State.reset` lists. The block is DISABLED since nothing is pending,
ENABLE is 0 and MODE is locked; nothing is granted since `en_eff` is 0. -/
theorem hardwareResetValues : Obligations.HardwareResetValues := by
  have disabled : State.reset.seqState = .disabled := seqState_disabled rfl rfl rfl
  have released : State.reset.grant = .none := grant_none_of_enEff rfl
  exact ⟨rfl, rfl, rfl, rfl, rfl, rfl, rfl, rfl, rfl, rfl, rfl, rfl, rfl, disabled, released⟩

end Sys2Proof.Machine
end

section
/-! The transaction words (R60 to R68). The decoder looks at the header byte alone and takes the write data from the low
32 bits, and a header byte is its write-enable bit, its reserved bits and its offset; so decoder and encoder are each
other's inverse where the header byte and the data are. -/

namespace Sys2Proof

open Sys2Proof.Machine

/-! The three ways through the decoder (R68) -/

section
variable {t : TxnWord} {h : BitVec 8} {i : Instr}

theorem decode_reserved (hr : TxnWord.reserved t ≠ 0#2) : decode t = .error .reservedHeader := by
  simp [decode, hr]

theorem decode_of_we (hr : TxnWord.reserved t = 0#2) (hw : TxnWord.we t = true) :
    decode t = (writeAt (TxnWord.offset t).toNat (TxnWord.wdata t)).elim (.error .unalignedOffset) .ok := by
  rw [decode, hr, hw]
  cases writeAt (TxnWord.offset t).toNat (TxnWord.wdata t) <;> simp

theorem decode_of_not_we (hr : TxnWord.reserved t = 0#2) (hw : TxnWord.we t = false) :
    decode t = (readAt (TxnWord.offset t).toNat).elim (.error .unalignedOffset) .ok := by
  rw [decode, hr, hw]
  cases readAt (TxnWord.offset t).toNat <;> simp

/-! The decoder by the header byte (R62) -/

theorem decode_read (ht : TxnWord.header t = h) (hr : h.extractLsb' 5 2 = 0#2) (hw : h.getLsbD 7 = false)
    (hi : readAt (h.extractLsb' 0 5).toNat = some i) : decode t = .ok i := by
  rw [decode_of_not_we (by rw [reserved_eq, ht, hr]) (by rw [we_eq, ht, hw]), offset_eq, ht, hi]; rfl

theorem decode_write (ht : TxnWord.header t = h) (hr : h.extractLsb' 5 2 = 0#2) (hw : h.getLsbD 7 = true)
    (hi : writeAt (h.extractLsb' 0 5).toNat (TxnWord.wdata t) = some i) : decode t = .ok i := by
  rw [decode_of_we (by rw [reserved_eq, ht, hr]) (by rw [we_eq, ht, hw]), offset_eq, ht, hi]; rfl

/-- What a word that decodes holds: no reserved bit, and the offset of a register (R68). -/
theorem decode_ok (hd : decode t = .ok i) : TxnWord.reserved t = 0#2 ∧
    (if TxnWord.we t then writeAt (TxnWord.offset t).toNat (TxnWord.wdata t)
      else readAt (TxnWord.offset t).toNat) = some i := by
  by_cases hr : TxnWord.reserved t = 0#2
  · refine ⟨hr, ?_⟩
    cases hw : TxnWord.we t
    · rw [decode_of_not_we hr hw] at hd
      cases e : readAt (TxnWord.offset t).toNat <;> rw [e] at hd <;> cases hd; rfl
    · rw [decode_of_we hr hw] at hd
      cases e : writeAt (TxnWord.offset t).toNat (TxnWord.wdata t) <;> rw [e] at hd <;> cases hd; rfl
  · rw [decode_reserved hr] at hd; cases hd

end

/-- Settles O2: the header byte is one of the sixteen of the map, and decides which register and which access. -/
theorem headerSelectsTransaction : Obligations.HeaderSelectsTransaction := by
  intro t
  exact ⟨fun h => decode_read h rfl rfl rfl, fun h => decode_read h rfl rfl rfl, fun h => decode_read h rfl rfl rfl,
    fun h => decode_read h rfl rfl rfl, fun h => decode_read h rfl rfl rfl, fun h => decode_read h rfl rfl rfl,
    fun h => decode_read h rfl rfl rfl, fun h => decode_read h rfl rfl rfl, fun h => decode_write h rfl rfl rfl,
    fun h => decode_write h rfl rfl rfl, fun h => decode_write h rfl rfl rfl, fun h => decode_write h rfl rfl rfl,
    fun h => decode_write h rfl rfl rfl, fun h => decode_write h rfl rfl rfl, fun h => decode_write h rfl rfl rfl,
    fun h => decode_write h rfl rfl rfl⟩

/-! The offsets of the eight registers (R42) -/

theorem readAt_eq_none_iff (n : Nat) : readAt n = none ↔ n % 4 ≠ 0 ∨ 0x20 ≤ n := by
  unfold readAt
  split
  case h_9 => simp only [imp_false, true_iff] at *; omega
  all_goals decide

theorem writeAt_eq_none_iff (n : Nat) (d : Word) : writeAt n d = none ↔ n % 4 ≠ 0 ∨ 0x20 ≤ n := by
  unfold writeAt
  split
  case h_9 => simp only [imp_false, true_iff] at *; omega
  all_goals simp

theorem readAt_encoding {n : Nat} {i : Instr} (h : readAt n = some i) :
    (headerOf i).toNat = n ∧ wdataOf i = 0#32 := by
  unfold readAt at h
  split at h <;> cases h <;> exact ⟨rfl, rfl⟩

theorem writeAt_encoding {n : Nat} {d : Word} {i : Instr} (h : writeAt n d = some i) :
    (headerOf i).toNat = 0x80 + n ∧ wdataOf i = d := by
  unfold writeAt at h
  split at h <;> cases h <;> exact ⟨rfl, rfl⟩

/-- A header byte without reserved bits is its write-enable bit over its offset (R60). -/
theorem header_toNat {t : TxnWord} (hr : TxnWord.reserved t = 0#2) :
    (TxnWord.header t).toNat = (if TxnWord.we t then 0x80 else 0) + (TxnWord.offset t).toNat := by
  have all : ∀ h : BitVec 8, h.extractLsb' 5 2 = 0#2 →
      h.toNat = (if h.getLsbD 7 then 0x80 else 0) + (h.extractLsb' 0 5).toNat := by decide
  rw [reserved_eq] at hr
  rw [we_eq, offset_eq]
  exact all _ hr

/-- A word is the encoding of a transaction with its header byte and its data. -/
theorem encode_eq {t : TxnWord} {i : Instr} (hh : (headerOf i).toNat = (TxnWord.header t).toNat)
    (hd : wdataOf i = TxnWord.wdata t) : encode i = t := by
  rw [word_split t, encode, BitVec.eq_of_toNat_eq hh, hd]

/-- The access a header byte spells, whichever transaction it is (R62). -/
theorem header_of_transaction (i : Instr) :
    (headerOf i).extractLsb' 5 2 = 0#2 ∧
      if (headerOf i).getLsbD 7 then writeAt ((headerOf i).extractLsb' 0 5).toNat (wdataOf i) = some i
      else readAt ((headerOf i).extractLsb' 0 5).toNat = some i := by
  cases i <;> simp [headerOf, wdataOf, readAt, writeAt]

theorem decode_encode (i : Instr) : decode (encode i) = .ok i := by
  obtain ⟨hr, hi⟩ := header_of_transaction i
  cases hw : (headerOf i).getLsbD 7 <;> rw [hw] at hi
  · exact decode_read (encode_header i) hr hw hi
  · exact decode_write (encode_header i) hr hw (by rw [encode_wdata]; exact hi)

/-- Settles O4: header byte and data of a transaction decode to it, and a decoded transaction has the header byte of its
word and, when it is a write, the data of its word. -/
theorem encodeAndDecodeAgree : Obligations.EncodeAndDecodeAgree := by
  refine ⟨fun i _ => decode_encode i, fun t i h hw => ?write, fun t i h hw hd => ?read⟩ <;>
    obtain ⟨hr, hi⟩ := decode_ok h <;> replace hw : TxnWord.we t = _ := hw <;> rw [hw] at hi
  case write =>
    obtain ⟨hh, hd⟩ := writeAt_encoding hi
    exact encode_eq (by rw [hh, header_toNat hr, hw]; rfl) hd
  case read =>
    obtain ⟨hh, hz⟩ := readAt_encoding hi
    exact encode_eq (by rw [hh, header_toNat hr, hw, if_neg Bool.false_ne_true, Nat.zero_add]) (hz.trans hd.symm)

/-! Words that spell no transaction (R63) -/

/-- An offset is aligned exactly when its two low bits are 0, and it is always below 0x20 (R42). -/
theorem offset_invalid_iff (t : TxnWord) :
    ((TxnWord.offset t).toNat % 4 ≠ 0 ∨ 0x20 ≤ (TxnWord.offset t).toNat) ↔ t.extractLsb' 32 2 ≠ 0#2 := by
  have all : ∀ h : BitVec 8, ((h.extractLsb' 0 5).toNat % 4 ≠ 0 ∨ 0x20 ≤ (h.extractLsb' 0 5).toNat) ↔
      h.extractLsb' 0 2 ≠ 0#2 := by decide
  have low : t.extractLsb' 32 2 = 0#2 ↔ (TxnWord.header t).extractLsb' 0 2 = 0#2 := by
    rw [← beq_iff_eq, ← beq_iff_eq (b := 0#2), ← aligned_eq]; rfl
  rw [offset_eq, ne_eq (t.extractLsb' 32 2), low]
  exact all _

theorem decode_error_iff (t : TxnWord) :
    (∃ e, decode t = .error e) ↔ t.extractLsb' 37 2 ≠ 0#2 ∨ t.extractLsb' 32 2 ≠ 0#2 := by
  have hres : TxnWord.reserved t = t.extractLsb' 37 2 := rfl
  rw [← offset_invalid_iff, ← hres]
  by_cases hr : TxnWord.reserved t = 0#2
  · cases hw : TxnWord.we t
    · rw [decode_of_not_we hr hw, ← readAt_eq_none_iff]
      cases readAt (TxnWord.offset t).toNat <;> simp [hr]
    · rw [decode_of_we hr hw, ← writeAt_eq_none_iff _ (TxnWord.wdata t)]
      cases writeAt (TxnWord.offset t).toNat (TxnWord.wdata t) <;> simp [hr]
  · simp [decode_reserved hr, hr]

/-- The refusal of a word or an offset that names no transaction (R49, R63). -/
theorem badTxn_live {s : State} (h : s.Live) :
    whileLive s (.next (s.refuse .badTxn)) = .next { s with refused := some .badTxn } := by
  rw [whileLive_live h, h.refuse_eq]

theorem hostStep_invalid {t : TxnWord} {s : State} (h : s.Live)
    (ht : t.extractLsb' 37 2 ≠ 0#2 ∨ t.extractLsb' 32 2 ≠ 0#2) :
    hostStep t s = .next { s with refused := some .badTxn } := by
  obtain ⟨e, he⟩ := (decode_error_iff t).2 ht
  rw [hostStep, he]
  exact badTxn_live h

/-- Settles O3: the decoder rejects exactly the reserved bits and the offsets of no register, and the host's step then
sets the mark alone. -/
theorem invalidWordIsRefused : Obligations.InvalidWordIsRefused := by
  intro t
  exact ⟨decode_error_iff t, fun s h ht => hostStep_invalid h ht⟩

/-- Settles O20: an offset of no register names no transaction, so both primitives refuse it. -/
theorem busPrimitivesRefuseOtherOffsets : Obligations.BusPrimitivesRefuseOtherOffsets := by
  intro offset v s h ho
  constructor
  · rw [memRead, (readAt_eq_none_iff offset).2 ho]; exact badTxn_live h
  · rw [memWrite, (writeAt_eq_none_iff offset v).2 ho]; exact badTxn_live h

/-- Settles O1: the nine transactions are read off the header bytes of their words, and the two other words fail the
check on their offset and on their reserved bits. -/
theorem decodeSampleWords : Obligations.DecodeSampleWords := by
  exact ⟨decode_read rfl rfl rfl rfl, decode_read rfl rfl rfl rfl, decode_read rfl rfl rfl rfl,
    decode_read rfl rfl rfl rfl, decode_write rfl rfl rfl rfl, decode_write rfl rfl rfl rfl,
    decode_write rfl rfl rfl rfl, decode_write rfl rfl rfl rfl, decode_write rfl rfl rfl rfl, rfl, rfl⟩

end Sys2Proof
end

section
/-! What a transaction can do, whichever it is (R62, R70 to R91): an access to the engines or a read changes the read
results, the history and the count of draws alone; a control write faults while a synchronisation is pending and does its
body otherwise, and neither reads nor changes those three. -/

namespace Sys2Proof.Machine

/-- What transaction `i` can make of `s`: the state it answers, by the kind of transaction and by what is pending. -/
inductive Transaction (s : State) : Instr → State → Prop where
  | access {i : Instr} {t : State} (hc : isControlWrite i = false)
      (ht : t = { s with reads := t.reads, hist := t.hist, draws := t.draws }) : Transaction s i t
  | faulted {i : Instr} (hc : isControlWrite i = true) (hp : s.syncOp ≠ .none) :
      Transaction s i { s with fault := some .fSync }
  | ctrla (d : Word) (hi : s.syncOp = .none) : Transaction s (.wrCtrla d) (writeCtrla d s)
  | ctrlb (d : Word) (hi : s.syncOp = .none) :
      Transaction s (.wrCtrlb d) (latchCommand (wCmd d) (configureB d s))
  | baud (d : Word) (hi : s.syncOp = .none) :
      Transaction s (.wrBaud d) (if s.ctrla.enable then s else { s with baud := wBaud d })
  | addr (d : Word) (hi : s.syncOp = .none) :
      Transaction s (.wrAddr d)
        (if s.ctrla.enable then s else { s with addr := { gencen := wGencen d, addr := wAddr d } })

theorem exec_transaction {i : Instr} {s t : State} (h : exec i s = .next t) : Transaction s i t := by
  have live := exec_live h
  cases hc : isControlWrite i with
  | false => exact .access hc (exec_frame_of_not_controlWrite hc h)
  | true =>
    by_cases hi : s.syncOp = .none
    · cases i with
      | wrCtrla d => rw [exec_wrCtrla_idle live hi] at h; cases h; exact .ctrla d hi
      | wrCtrlb d => rw [exec_wrCtrlb_idle live hi] at h; cases h; exact .ctrlb d hi
      | wrBaud d => rw [exec_wrBaud_idle live hi] at h; cases h; exact .baud d hi
      | wrAddr d => rw [exec_wrAddr_idle live hi] at h; cases h; exact .addr d hi
      | _ => cases hc
    · rw [exec_controlWrite_pending live hi hc] at h; cases h; exact .faulted hc hi

/-! The control writes read and change no read result, no event, no draw, and nothing of the sequencer -/

/-- The state with other read results, another history, another count of draws, other frames and another schedule. -/
def State.elsewhere (rs : List Word) (es : List Event) (n : Nat) (fs : List Frame) (us : List Turn) (s : State) : State :=
  { s with reads := rs, hist := es, draws := n, frames := fs, schedule := us }

section
variable (rs : List Word) (es : List Event) (n : Nat) (fs : List Frame) (us : List Turn)

theorem writeCtrla_elsewhere (d : Word) (s : State) :
    writeCtrla d (s.elsewhere rs es n fs us) = (writeCtrla d s).elsewhere rs es n fs us := by
  have he : (s.elsewhere rs es n fs us).ctrla = s.ctrla := rfl
  have hm : modeAfter d (s.elsewhere rs es n fs us) = modeAfter d s := rfl
  unfold writeCtrla
  rw [he, hm]
  split_ifs <;> rfl

theorem latchCommand_elsewhere (c : BitVec 2) (s : State) :
    latchCommand c (s.elsewhere rs es n fs us) = (latchCommand c s).elsewhere rs es n fs us := by
  have hg : (s.elsewhere rs es n fs us).grant = s.grant := rfl
  unfold latchCommand
  rw [hg]
  split
  · split_ifs <;> rfl
  · rfl

theorem configureB_elsewhere (d : Word) (s : State) :
    configureB d (s.elsewhere rs es n fs us) = (configureB d s).elsewhere rs es n fs us := by
  rw [configureB_eq, configureB_eq]; rfl

theorem State.Live.elsewhere {s : State} (h : s.Live) : (s.elsewhere rs es n fs us).Live :=
  ⟨h.clk, h.noFault, h.noRefusal⟩

theorem exec_controlWrite_elsewhere {i : Instr} {s t : State} (hc : isControlWrite i = true) (h : exec i s = .next t) :
    exec i (s.elsewhere rs es n fs us) = .next (t.elsewhere rs es n fs us) := by
  have live := exec_live h
  have live' := live.elsewhere rs es n fs us
  have hb : (s.elsewhere rs es n fs us).syncOp = s.syncOp := rfl
  cases exec_transaction h with
  | access hn ht => rw [hc] at hn; cases hn
  | faulted _ hp => rw [exec_controlWrite_pending live' (hb ▸ hp) hc]; rfl
  | ctrla d hi => rw [exec_wrCtrla_idle live' (hb.trans hi), writeCtrla_elsewhere]
  | ctrlb d hi => rw [exec_wrCtrlb_idle live' (hb.trans hi), configureB_elsewhere, latchCommand_elsewhere]
  | baud d hi =>
    have he : (s.elsewhere rs es n fs us).ctrla = s.ctrla := rfl
    rw [exec_wrBaud_idle live' (hb.trans hi), he]
    split_ifs <;> rfl
  | addr d hi =>
    have he : (s.elsewhere rs es n fs us).ctrla = s.ctrla := rfl
    rw [exec_wrAddr_idle live' (hb.trans hi), he]
    split_ifs <;> rfl

end

theorem exec_controlWrite_keeps {i : Instr} {s t : State} (hc : isControlWrite i = true) (h : exec i s = .next t) :
    t = t.elsewhere s.reads s.hist s.draws s.frames s.schedule := by
  have e := exec_controlWrite_elsewhere s.reads s.hist s.draws s.frames s.schedule hc h
  exact Host.Outcome.next.inj (h.symm.trans e)

/-! The events of a transaction (R92) -/

/-- What an access appends to the history: its event while an engine is granted (R85 to R91). -/
def forwarded (grant : Personality) (e : Event) : List Event := if grant = .none then [] else [e]

/-- An access forwarded to the engine of personality `p`. -/
def Event.IsAccessTo (p : Personality) : Event → Prop
  | .engRead q _ => q = p
  | .engWrite q _ _ => q = p
  | .grant _ | .release _ | .engReset | .cmd _ _ => False

/-- Events that all are accesses to the engine of personality `p`. -/
def AccessesTo (p : Personality) (es : List Event) : Prop := ∀ e ∈ es, p ≠ .none ∧ e.IsAccessTo p

theorem forwarded_accessesTo {p : Personality} {e : Event} (he : e.IsAccessTo p) : AccessesTo p (forwarded p e) := by
  unfold forwarded AccessesTo
  split_ifs with hp
  · nofun
  · intro e' hm; rw [List.mem_singleton.1 hm]; exact ⟨hp, he⟩

/-- The step `k` from `s` to `t` appends `new` to the history, and does the same whatever the history holds. -/
structure Appends (k : State → Result) (new : List Event) (s t : State) : Prop where
  hist : t.hist = s.hist ++ new
  same : ∀ es, k { s with hist := es } = .next { t with hist := es ++ new }

theorem engineRead_appends {o : BitVec 5} {s t : State} (h : engineRead o s = .next t) :
    Appends (engineRead o) (forwarded s.grant (.engRead s.grant o)) s t := by
  obtain ⟨live, e⟩ := whileLive_next h
  cases e
  refine ⟨by rw [forwardRead_eq]; rfl, fun es => ?_⟩
  refine (whileLive_live ⟨live.clk, live.noFault, live.noRefusal⟩ _).trans ?_
  rw [forwardRead_eq, forwardRead_eq]; rfl

theorem engineWrite_appends {o : BitVec 5} {d : Word} {s t : State} (h : engineWrite o d s = .next t) :
    Appends (engineWrite o d) (forwarded s.grant (.engWrite s.grant o d)) s t := by
  obtain ⟨live, e⟩ := whileLive_next h
  cases e
  refine ⟨by rw [forwardWrite_eq]; rfl, fun es => ?_⟩
  refine (whileLive_live ⟨live.clk, live.noFault, live.noRefusal⟩ _).trans ?_
  rw [forwardWrite_eq, forwardWrite_eq]; rfl

theorem controlWrite_appends {i : Instr} {s t : State} (hc : isControlWrite i = true) (h : exec i s = .next t) :
    Appends (exec i) [] s t := by
  have keeps := exec_controlWrite_keeps hc h
  refine ⟨by rw [keeps]; exact (List.append_nil _).symm, fun es => ?_⟩
  have e := exec_controlWrite_elsewhere s.reads es s.draws s.frames s.schedule hc h
  rw [List.append_nil, keeps]
  exact e

/-- The events a transaction appends are accesses to the granted engine. -/
theorem exec_appends {i : Instr} {s t : State} (h : exec i s = .next t) :
    ∃ new, Appends (exec i) new s t ∧ AccessesTo s.grant new := by
  cases i with
  | wrCtrla d | wrCtrlb d | wrBaud d | wrAddr d => exact ⟨[], controlWrite_appends rfl h, nofun⟩
  | rdEng0 | rdEng1 | rdEng2 => exact ⟨_, engineRead_appends h, forwarded_accessesTo rfl⟩
  | wrStatus d | wrEng0 d | wrEng1 d | wrEng2 d => exact ⟨_, engineWrite_appends h, forwarded_accessesTo rfl⟩
  | rdCtrla | rdCtrlb | rdBaud | rdAddr | rdStatus =>
    obtain ⟨live, e⟩ := whileLive_next h
    cases e
    refine ⟨[], ⟨(List.append_nil _).symm, fun es => ?_⟩, nofun⟩
    rw [List.append_nil]
    exact whileLive_live ⟨live.clk, live.noFault, live.noRefusal⟩ _

/-- Settles O22: whatever the transaction is, it appends to the history and does the same over any other one. -/
theorem historyIsNeverRead : Obligations.HistoryIsNeverRead := by
  intro i s t h e
  obtain ⟨new, appends, -⟩ := exec_appends e
  exact ⟨new, appends.hist, appends.same h⟩

/-! The draws of a transaction (R31) -/

theorem engineRead_redrawn {o : BitVec 5} {s t : State} (h : engineRead o s = .next t) (n : Nat) :
    t.reads = s.reads ++ [Config.engRdata s.handle s.draws] ∧ engineRead o { s with draws := n } =
      .next { t with reads := s.reads ++ [Config.engRdata s.handle n], draws := n + 1 } := by
  obtain ⟨live, e⟩ := whileLive_next h
  rw [engineRead_live live] at h
  cases h
  have live' : ({ s with draws := n } : State).Live := ⟨live.clk, live.noFault, live.noRefusal⟩
  exact ⟨rfl, engineRead_live live' o⟩

theorem rdStatus_redrawn {s t : State} (h : exec .rdStatus s = .next t) (n : Nat) :
    t.reads = s.reads ++ [statusWord s.syncBusy (Config.engStatus s.handle s.draws)] ∧
      exec .rdStatus { s with draws := n } = .next { t with
        reads := s.reads ++ [statusWord s.syncBusy (Config.engStatus s.handle n)], draws := n + 1 } := by
  obtain ⟨live, e⟩ := whileLive_next h
  cases e
  exact ⟨rfl, exec_rdStatus_live ⟨live.clk, live.noFault, live.noRefusal⟩⟩

/-- A transaction that draws nothing does the same whatever was drawn before. -/
theorem exec_undrawn {i : Instr} {s t : State} (h : exec i s = .next t)
    (hi : i ≠ .rdStatus ∧ i ≠ .rdEng0 ∧ i ≠ .rdEng1 ∧ i ≠ .rdEng2) (n : Nat) :
    exec i { s with draws := n } = .next { t with draws := n } := by
  obtain ⟨hs, h0, h1, h2⟩ := hi
  cases i with
  | wrCtrla d | wrCtrlb d | wrBaud d | wrAddr d =>
    have e := exec_controlWrite_elsewhere s.reads s.hist n s.frames s.schedule rfl h
    rw [exec_controlWrite_keeps rfl h]
    exact e
  | rdStatus => exact absurd rfl hs
  | rdEng0 => exact absurd rfl h0
  | rdEng1 => exact absurd rfl h1
  | rdEng2 => exact absurd rfl h2
  | rdCtrla | rdCtrlb | rdBaud | rdAddr =>
    obtain ⟨live, e⟩ := whileLive_next h
    cases e
    exact whileLive_live ⟨live.clk, live.noFault, live.noRefusal⟩ _
  | wrStatus d | wrEng0 d | wrEng1 d | wrEng2 d =>
    obtain ⟨live, e⟩ := whileLive_next h
    cases e
    refine (whileLive_live ⟨live.clk, live.noFault, live.noRefusal⟩ _).trans ?_
    rw [forwardWrite_eq, forwardWrite_eq]; rfl

/-- Settles O23: the four transactions that draw put the draw in the word they read, below bit 15 of a status word; the
others draw nothing. -/
theorem engineInputsReachOnlyReadData : Obligations.EngineInputsReachOnlyReadData := by
  intro i s t n h
  cases i with
  | rdStatus =>
    obtain ⟨ht, e⟩ := rdStatus_redrawn h n
    exact ⟨_, _, e, fun _ => ⟨_, _, ht, rfl, by rw [statusWord_bit15, statusWord_bit15]⟩, nofun,
      fun hn => absurd rfl hn⟩
  | rdEng0 =>
    obtain ⟨ht, e⟩ := engineRead_redrawn h n
    exact ⟨_, _, e, nofun, fun _ => ⟨_, _, ht, rfl⟩, fun _ hn => absurd rfl hn⟩
  | rdEng1 =>
    obtain ⟨ht, e⟩ := engineRead_redrawn h n
    exact ⟨_, _, e, nofun, fun _ => ⟨_, _, ht, rfl⟩, fun _ _ hn => absurd rfl hn⟩
  | rdEng2 =>
    obtain ⟨ht, e⟩ := engineRead_redrawn h n
    exact ⟨_, _, e, nofun, fun _ => ⟨_, _, ht, rfl⟩, fun _ _ _ hn => absurd rfl hn⟩
  | _ => exact ⟨t.reads, n, exec_undrawn h (by simp) n, by simp, by simp, fun _ _ _ _ => rfl⟩

/-! The marks a transaction sets (R151) -/

/-- An accepted CTRLA write leaves the marks alone, but for the refusal of an enable with no personality (R71). -/
theorem writeCtrla_marks (d : Word) (s : State) :
    writeCtrla d s = s.refuse .enableNone ∨
      (writeCtrla d s).fault = s.fault ∧ (writeCtrla d s).refused = s.refused := by
  rcases writeCtrla_cases d s with ⟨-, e⟩ | ⟨-, -, -, e⟩ | ⟨-, -, -, e⟩ | ⟨-, -, -, -, e⟩ | ⟨-, -, -, -, e⟩ |
    ⟨-, -, -, e⟩
  case inr.inr.inr.inl => exact .inl e
  all_goals rw [e]; exact .inr ⟨rfl, rfl⟩

theorem writeCtrlb_marks (d : Word) (s : State) :
    (latchCommand (wCmd d) (configureB d s)).fault = s.fault ∧
      (latchCommand (wCmd d) (configureB d s)).refused = s.refused := by
  rcases latchCommand_cases (wCmd d) (configureB d s) with e | ⟨role, -, -, e⟩ <;> rw [e, configureB_eq] <;>
    exact ⟨rfl, rfl⟩

theorem State.Live.not_marked {s t : State} (h : s.Live) (hf : t.fault = s.fault) (hr : t.refused = s.refused) :
    ¬ t.marked = true := by
  simp [State.marked, hf, hr, h.noFault, h.noRefusal]

/-- Settles O43: the two ways to a mark, the sync check and the refusal, change nothing else; every other way sets none. -/
theorem faultOrRefusalVoidsTheStep : Obligations.FaultOrRefusalVoidsTheStep := by
  intro i s t h hm
  have live := exec_live h
  cases exec_transaction h with
  | access hc ht => exact absurd hm (live.not_marked (by rw [ht]) (by rw [ht]))
  | faulted hc hp => exact .inl ⟨rfl, hc, hp⟩
  | ctrla d hi =>
    rcases writeCtrla_marks d s with e | ⟨hf, hr⟩
    · exact .inr ⟨by rw [e, live.refuse_eq], ⟨d, rfl⟩, hi⟩
    · exact absurd hm (live.not_marked hf hr)
  | ctrlb d hi =>
    obtain ⟨hf, hr⟩ := writeCtrlb_marks d s
    exact absurd hm (live.not_marked hf hr)
  | baud d hi => exact absurd hm (live.not_marked (by split <;> rfl) (by split <;> rfl))
  | addr d hi => exact absurd hm (live.not_marked (by split <;> rfl) (by split <;> rfl))

/-! Which transaction starts which synchronisation (R71, R72, section 6 of 40_ctrl_writes.md) -/

section
variable {d : Word} {s : State}

/-- What an accepted CTRLA write leaves pending, and the personality it then shows, in the cases of R71. -/
theorem writeCtrla_pending (live : s.Live) (hi : s.syncOp = .none) :
    ((writeCtrla d s).syncOp = .reset ↔ wSwrst d = true) ∧
    ((writeCtrla d s).syncOp = .enable ↔ wSwrst d = false ∧ wEnable d = true ∧ s.ctrla.enable = false ∧
      pers (writeCtrla d s).ctrla.mode ≠ .none ∧ (writeCtrla d s).refused = none) ∧
    ((writeCtrla d s).syncOp = .disable ↔ wSwrst d = false ∧ wEnable d = false ∧ s.ctrla.enable = true) ∧
    (writeCtrla d s).syncOp ≠ .cmd := by
  rcases writeCtrla_cases d s with ⟨hr, e⟩ | ⟨hr, he, hw, e⟩ | ⟨hr, he, hw, e⟩ | ⟨hr, he, hw, hn, e⟩ |
    ⟨hr, he, hw, hn, e⟩ | ⟨hr, he, hw, e⟩ <;> rw [e]
  · simp [startReset, hr]
  · simp [hi, hr, he, hw]
  · simp [startDisable, hr, he, hw]
  · simp [hi, hr, he, hw, live.noRefusal]
  · simp [startEnable, configureA, hr, he, hw, hn, live.noRefusal]
  · simp [configureA, hi, hr, he, hw]

/-- What an accepted CTRLB write leaves pending (R72). -/
theorem writeCtrlb_pending (hi : s.syncOp = .none) :
    ((latchCommand (wCmd d) (configureB d s)).syncOp = .cmd ∧ wCmd d ≠ 0#2 ∧ (s.grant = .i2cm ∨ s.grant = .i2cs)) ∨
    ((latchCommand (wCmd d) (configureB d s)).syncOp = .none ∧
      ¬ (wCmd d ≠ 0#2 ∧ (s.grant = .i2cm ∨ s.grant = .i2cs))) := by
  have hb : (configureB d s).syncOp = .none := by rw [configureB_eq]; exact hi
  have hg : roleOf (configureB d s).grant ≠ none ↔ s.grant = .i2cm ∨ s.grant = .i2cs := by
    rw [configureB_grant, ne_eq, roleOf_eq_none_iff]; tauto
  rw [← hg]
  by_cases hc : wCmd d ≠ 0#2 ∧ roleOf (configureB d s).grant ≠ none
  · obtain ⟨role, hr⟩ := Option.ne_none_iff_exists'.1 hc.2
    exact .inl ⟨by rw [latchCommand_granted hr hc.1], hc⟩
  · exact .inr ⟨by rw [latchCommand_dropped (by tauto), hb], hc⟩

end

/-- Settles O11: only the two control writes that R71 and R72 name start anything. -/
theorem whichWriteStartsWhichSync : Obligations.WhichWriteStartsWhichSync := by
  intro i s t hi h
  have live := exec_live h
  cases exec_transaction h with
  | access hc ht =>
    have idle : t.syncOp = .none := by rw [ht]; exact hi
    rw [idle]
    refine ⟨⟨nofun, ?_⟩, ⟨nofun, ?_⟩, ⟨nofun, ?_⟩, nofun, ?_⟩ <;> rintro ⟨d, rfl, -⟩ <;> cases hc
  | faulted hc hp => exact absurd hi hp
  | ctrla d =>
    obtain ⟨reset, enable, disable, cmd⟩ := writeCtrla_pending (d := d) live hi
    simp only [Instr.wrCtrla.injEq, exists_eq_left', reduceCtorEq, false_and, exists_false, iff_false]
    exact ⟨reset, enable, disable, cmd⟩
  | ctrlb d =>
    simp only [Instr.wrCtrlb.injEq, exists_eq_left', reduceCtorEq, false_and, exists_false, iff_false]
    rcases writeCtrlb_pending (d := d) hi with ⟨e, hc⟩ | ⟨e, hc⟩ <;> rw [e]
    · exact ⟨nofun, nofun, nofun, iff_of_true rfl hc⟩
    · exact ⟨nofun, nofun, nofun, iff_of_false nofun hc⟩
  | baud d =>
    have idle : (if s.ctrla.enable then s else { s with baud := wBaud d }).syncOp = .none := by split <;> exact hi
    rw [idle]
    exact ⟨⟨nofun, nofun⟩, ⟨nofun, nofun⟩, ⟨nofun, nofun⟩, nofun, nofun⟩
  | addr d =>
    have idle : (if s.ctrla.enable then s
        else { s with addr := { gencen := wGencen d, addr := wAddr d } }).syncOp = .none := by split <;> exact hi
    rw [idle]
    exact ⟨⟨nofun, nofun⟩, ⟨nofun, nofun⟩, ⟨nofun, nofun⟩, nofun, nofun⟩

end Sys2Proof.Machine
end

section
/-! The invariants I1 to I9 (R30). They speak of CTRLA and the hidden state alone; each body of a control write and each
completion keeps them, and with that every step of every agent does. -/

namespace Sys2Proof.Machine

/-! What the invariants say, in the forms the steps use -/

section
variable {s : State}

theorem State.Inv.idle_swrst (hs : s.Inv) (hp : s.syncOp ≠ .reset) : s.ctrla.swrst = false :=
  Bool.eq_false_iff.2 fun h => hp (hs.i1.1 h)

theorem State.Inv.idle_cmd (hs : s.Inv) (hi : s.syncOp = .none) : s.cmdPending = none := hs.i6 (by rw [hi]; nofun)

/-- At most one engine enable is 1 in any state at all: I9 (R30). -/
theorem engineEnables_le_one (s : State) : [s.enUart, s.enSpi, s.enI2cm, s.enI2cs].count true ≤ 1 := by
  rw [engineEnables_count]; split <;> omega

/-- The invariants read five fields. -/
theorem State.Inv.congr {t : State} (hs : s.Inv) (ha : t.ctrla = s.ctrla) (ho : t.syncOp = s.syncOp)
    (he : t.enEff = s.enEff) (hl : t.modeLocked = s.modeLocked) (hc : t.cmdPending = s.cmdPending) : t.Inv where
  i1 := by rw [ha, ho]; exact hs.i1
  i2 := by rw [ha, ho, he]; exact hs.i2
  i3 := by rw [ha, hl]; exact hs.i3
  i4 := by rw [ha, he]; exact hs.i4
  i5 := by rw [ha, ho, he, hc]; exact hs.i5
  i6 := by rw [ho, hc]; exact hs.i6
  i7 := by rw [ha, ho, he]; exact hs.i7
  i8 := by rw [ha, ho, he]; exact hs.i8
  i9 := engineEnables_le_one t
  locked := by rw [he, hl]; exact hs.locked
  role := by rw [ha, hc]; exact hs.role

theorem BlockSame.inv {t : State} (h : BlockSame s t) (hs : s.Inv) : t.Inv :=
  hs.congr h.ctrla h.syncOp h.enEff h.modeLocked h.cmdPending

/-! The bodies of the control writes (R71, R72) -/

theorem startReset_inv (hs : s.Inv) (hi : s.syncOp = .none) : (startReset s).Inv where
  i1 := ⟨fun _ => rfl, fun _ => rfl⟩
  i2 := nofun
  i3 := hs.i3
  i4 := hs.i4
  i5 := nofun
  i6 := fun _ => hs.idle_cmd hi
  i7 := nofun
  i8 := nofun
  i9 := engineEnables_le_one _
  locked := hs.locked
  role := hs.role

theorem startDisable_inv (hs : s.Inv) (hi : s.syncOp = .none) (he : s.ctrla.enable = true) :
    (startDisable s).Inv where
  i1 := iff_of_false (by rw [startDisable, hs.idle_swrst (by rw [hi]; nofun)]; nofun) nofun
  i2 := nofun
  i3 := nofun
  i4 := hs.i4
  i5 := nofun
  i6 := fun _ => hs.idle_cmd hi
  i7 := nofun
  i8 := fun _ => ⟨rfl, (hs.i2 hi).trans he⟩
  i9 := engineEnables_le_one _
  locked := hs.locked
  role := hs.role

/-- With the block disabled and nothing pending nothing is granted, so only ENABLE and I1 are at stake. -/
theorem configureA_inv (d : Word) (hs : s.Inv) (hi : s.syncOp = .none) (he : s.ctrla.enable = false) :
    (configureA d s).Inv where
  i1 := hs.i1
  i2 := hs.i2
  i3 := fun h => absurd (he.symm.trans h) nofun
  i4 := fun h => absurd (((hs.i2 hi).trans he).symm.trans h) nofun
  i5 := fun h => absurd (hi.symm.trans h) nofun
  i6 := hs.i6
  i7 := fun h => absurd (hi.symm.trans h) nofun
  i8 := fun h => absurd (hi.symm.trans h) nofun
  i9 := engineEnables_le_one _
  locked := hs.locked
  role := fun _ _ h => absurd ((hs.idle_cmd hi).symm.trans h) nofun

theorem startEnable_inv (hs : s.Inv) (hi : s.syncOp = .none) (he : s.ctrla.enable = false)
    (hm : pers s.ctrla.mode ≠ .none) : (startEnable s).Inv where
  i1 := iff_of_false (by rw [startEnable, hs.idle_swrst (by rw [hi]; nofun)]; nofun) nofun
  i2 := nofun
  i3 := fun _ => ⟨rfl, hm⟩
  i4 := fun _ => hm
  i5 := nofun
  i6 := fun _ => hs.idle_cmd hi
  i7 := fun _ => ⟨rfl, (hs.i2 hi).trans he⟩
  i8 := nofun
  i9 := engineEnables_le_one _
  locked := fun _ => rfl
  role := hs.role

theorem writeCtrla_inv (d : Word) (hs : s.Inv) (hi : s.syncOp = .none) : (writeCtrla d s).Inv := by
  rcases writeCtrla_cases d s with ⟨-, e⟩ | ⟨-, -, -, e⟩ | ⟨-, he, -, e⟩ | ⟨-, -, -, -, e⟩ | ⟨-, he, -, hm, e⟩ |
    ⟨-, he, -, e⟩ <;> rw [e]
  · exact startReset_inv hs hi
  · exact hs
  · exact startDisable_inv hs hi he
  · exact hs.congr rfl rfl rfl rfl rfl
  · exact startEnable_inv (configureA_inv d hs hi he) hi he hm
  · exact configureA_inv d hs hi he

/-- A granted I2C engine: the block is enabled and MODE selects it. -/
theorem latchCommand_inv (code : BitVec 2) (hs : s.Inv) (hi : s.syncOp = .none) : (latchCommand code s).Inv := by
  rcases latchCommand_cases code s with e | ⟨role, hr, hc, e⟩ <;> rw [e]
  · exact hs
  · have granted : s.enEff = true := by
      by_contra h; rw [grant_none_of_enEff (Bool.eq_false_iff.2 h)] at hr; cases hr
    have hg : s.grant = pers s.ctrla.mode := by rw [State.grant, if_pos granted]
    have i2c : s.grant = .i2cm ∨ s.grant = .i2cs := by
      by_contra h; rw [(roleOf_eq_none_iff s.grant).2 (not_or.1 h)] at hr; cases hr
    rw [hg] at hr i2c
    exact {
      i1 := iff_of_false (by rw [hs.idle_swrst (by rw [hi]; nofun)]; nofun) nofun
      i2 := nofun
      i3 := hs.i3
      i4 := hs.i4
      i5 := fun _ => ⟨granted, (hs.i2 hi).symm.trans granted, nofun, i2c⟩
      i6 := fun h => absurd rfl h
      i7 := nofun
      i8 := nofun
      i9 := engineEnables_le_one _
      locked := hs.locked
      role := fun r c h => by cases h; exact ⟨hr, hc⟩ }

theorem exec_inv {i : Instr} {t : State} (hs : s.Inv) (h : exec i s = .next t) : t.Inv := by
  cases exec_transaction h with
  | access hc ht => rw [ht]; exact hs.congr rfl rfl rfl rfl rfl
  | faulted hc hp => exact hs.congr rfl rfl rfl rfl rfl
  | ctrla d hi => exact writeCtrla_inv d hs hi
  | ctrlb d hi => 
    have hb : (configureB d s).Inv := by rw [configureB_eq]; exact hs.congr rfl rfl rfl rfl rfl
    exact latchCommand_inv (wCmd d) hb (by rw [configureB_eq]; exact hi)
  | baud d hi =>
    split
    · exact hs
    · exact hs.congr rfl rfl rfl rfl rfl
  | addr d hi =>
    split
    · exact hs
    · exact hs.congr rfl rfl rfl rfl rfl

/-! The four completions (R101 to R104) -/

/-- A block with nothing pending keeps the invariants if ENABLE is the effective enable and needs a locked personality. -/
theorem inv_of_idle (hi : s.syncOp = .none) (hr : s.ctrla.swrst = false) (he : s.enEff = s.ctrla.enable)
    (hm : s.ctrla.enable = true → s.modeLocked = true ∧ pers s.ctrla.mode ≠ .none) (hc : s.cmdPending = none) :
    s.Inv where
  i1 := iff_of_false (by rw [hr]; nofun) (by rw [hi]; nofun)
  i2 := fun _ => he
  i3 := hm
  i4 := fun h => (hm (he.symm.trans h)).2
  i5 := fun h => absurd (hi.symm.trans h) nofun
  i6 := fun _ => hc
  i7 := fun h => absurd (hi.symm.trans h) nofun
  i8 := fun h => absurd (hi.symm.trans h) nofun
  i9 := engineEnables_le_one s
  locked := fun h => (hm (he.symm.trans h)).1
  role := fun _ _ h => absurd (hc.symm.trans h) nofun

theorem syncComplete_inv (hs : s.Inv) : (syncComplete s).Inv := by
  unfold syncComplete
  split
  case h_1 => exact hs
  case h_2 hp =>
    rw [completeReset_eq]
    exact inv_of_idle rfl rfl rfl nofun rfl
  case h_3 hp =>
    obtain ⟨he, -⟩ := hs.i7 hp
    exact inv_of_idle rfl (hs.idle_swrst (by rw [hp]; nofun)) he.symm hs.i3 (hs.i6 (by rw [hp]; nofun))
  case h_4 hp =>
    obtain ⟨he, -⟩ := hs.i8 hp
    exact inv_of_idle rfl (hs.idle_swrst (by rw [hp]; nofun)) he.symm hs.i3 (hs.i6 (by rw [hp]; nofun))
  case h_5 hp =>
    obtain ⟨hg, he, hc, -⟩ := hs.i5 hp
    obtain ⟨⟨role, code⟩, hc⟩ := Option.ne_none_iff_exists'.1 hc
    rw [completeCmd_latched hc]
    exact inv_of_idle rfl (hs.idle_swrst (by rw [hp]; nofun)) (hg.trans he.symm) hs.i3 rfl

end

/-- What every transaction and every completion keeps, and no bookkeeping of the sequencer touches, every step keeps. -/
theorem step_keeps {P : State → Prop} (same : ∀ {s t}, BlockSame s t → P s → P t)
    (txn : ∀ {i s t}, exec i s = .next t → P s → P t) (sync : ∀ {s}, P s → P (syncComplete s)) {s t : State}
    (h : step s = .next t) (hs : P s) : P t := by
  cases step_block h with
  | same k => exact same k hs
  | txn i u v hu e hv => exact same hv (txn e (same hu hs))
  | sync u hu k => exact same k (sync (same hu hs))

/-- Settles O34: the three ways a step can touch the block keep the invariants. -/
theorem stepKeepsInvariants : Obligations.StepKeepsInvariants := fun _ _ hs h =>
  step_keeps (fun k hs => k.inv hs) (fun e hs => exec_inv hs e) syncComplete_inv h hs

end Sys2Proof.Machine
end

section
/-! The grant and the history (R92, R105, R106). Only a completion of SYNC touches the effective enable, and MODE is fixed
while it is locked; so a transaction leaves the grant alone, and what it appends to the history are accesses of the
owner. Reading the history in order then says what R92 and R106 ask. -/

namespace Sys2Proof.Machine

/-! What a transaction leaves of the arbiter's inputs (R22, R105) -/

theorem modeAfter_locked {s : State} (hl : s.modeLocked = true) (d : Word) : modeAfter d s = s.ctrla.mode := by
  simp [modeAfter, hl]

theorem writeCtrla_arbiter (d : Word) (s : State) : (writeCtrla d s).enEff = s.enEff ∧
    (s.modeLocked = true → (writeCtrla d s).modeLocked = true ∧ (writeCtrla d s).ctrla.mode = s.ctrla.mode) := by
  rcases writeCtrla_cases d s with ⟨-, e⟩ | ⟨-, -, -, e⟩ | ⟨-, -, -, e⟩ | ⟨-, -, -, -, e⟩ | ⟨-, -, -, -, e⟩ |
    ⟨-, -, -, e⟩ <;> rw [e]
  case inr.inr.inr.inr.inl => exact ⟨rfl, fun hl => ⟨rfl, modeAfter_locked hl d⟩⟩
  case inr.inr.inr.inr.inr => exact ⟨rfl, fun hl => ⟨hl, modeAfter_locked hl d⟩⟩
  all_goals exact ⟨rfl, fun hl => ⟨hl, rfl⟩⟩

theorem writeCtrlb_arbiter (d : Word) (s : State) :
    (latchCommand (wCmd d) (configureB d s)).enEff = s.enEff ∧
      (latchCommand (wCmd d) (configureB d s)).modeLocked = s.modeLocked ∧
      (latchCommand (wCmd d) (configureB d s)).ctrla = s.ctrla := by
  rcases latchCommand_cases (wCmd d) (configureB d s) with e | ⟨role, -, -, e⟩ <;> rw [e, configureB_eq] <;>
    exact ⟨rfl, rfl, rfl⟩

/-- A transaction leaves the effective enable alone, and MODE and its lock while it is locked (R22, R27). -/
theorem exec_arbiter {i : Instr} {s t : State} (h : exec i s = .next t) : t.enEff = s.enEff ∧
    (s.modeLocked = true → t.modeLocked = true ∧ t.ctrla.mode = s.ctrla.mode) := by
  cases exec_transaction h with
  | access hc ht => rw [ht]; exact ⟨rfl, fun hl => ⟨hl, rfl⟩⟩
  | faulted hc hp => exact ⟨rfl, fun hl => ⟨hl, rfl⟩⟩
  | ctrla d hi => exact writeCtrla_arbiter d s
  | ctrlb d hi =>
    obtain ⟨he, hl, ha⟩ := writeCtrlb_arbiter d s
    exact ⟨he, fun h => ⟨hl.trans h, by rw [ha]⟩⟩
  | baud d hi => split <;> exact ⟨rfl, fun hl => ⟨hl, rfl⟩⟩
  | addr d hi => split <;> exact ⟨rfl, fun hl => ⟨hl, rfl⟩⟩

theorem exec_grant {i : Instr} {s t : State} (hs : s.Inv) (h : exec i s = .next t) : t.grant = s.grant := by
  obtain ⟨he, hm⟩ := exec_arbiter h
  unfold State.grant
  rw [he]
  split_ifs with granted
  · rw [(hm (hs.locked granted)).2]
  · rfl

/-! Reading a history from its oldest event -/

theorem scanHist_append (es new : List Event) : scanHist (es ++ new) = new.foldl HistScan.add (scanHist es) :=
  List.foldl_append

theorem scan_accesses {new : List Event} {c : HistScan} (h : AccessesTo c.owner new) :
    new.foldl HistScan.add c = c := by
  induction new with
  | nil => rfl
  | cons e es ih =>
    obtain ⟨⟨hp, he⟩, hes⟩ := List.forall_mem_cons.1 h
    have keeps : c.add e = c := by
      cases e with
      | engRead q o | engWrite q o d =>
        cases he
        rw [HistScan.add, bne_iff_ne.2 hp, beq_self_eq_true, Bool.and_true, Bool.and_true]
      | _ => cases he
    rw [List.foldl_cons, keeps]
    exact ih hes

/-- What was out of order stays so. -/
theorem scan_ok {es : List Event} {c : HistScan} (h : (es.foldl HistScan.add c).ok = true) : c.ok = true := by
  induction es generalizing c with
  | nil => exact h
  | cons e es ih =>
    have hc := ih h
    cases e <;> simp only [HistScan.add, Bool.and_eq_true] at hc <;> tauto

theorem grant_inOrder {c : HistScan} {p : Personality} (h : (c.add (.grant p)).ok = true) :
    p ≠ .none ∧ (c.last = .none ∨ c.last = p) := by
  simp only [HistScan.add, Bool.and_eq_true, Bool.or_eq_true, beq_iff_eq, bne_iff_ne] at h
  exact ⟨h.2.1.2, h.2.2⟩

theorem access_inOrder {c : HistScan} {p : Personality} {e : Event} (he : e.IsAccessTo p)
    (h : (c.add e).ok = true) : p ≠ .none ∧ c.owner = p := by
  cases e with
  | engRead q o | engWrite q o d =>
    cases he
    simp only [HistScan.add, Bool.and_eq_true, beq_iff_eq, bne_iff_ne] at h
    exact ⟨h.1.2, h.2⟩
  | _ => cases he

/-! The history and the grant stay in step (R92, R105, R106) -/

theorem BlockSame.histInv {s t : State} (h : BlockSame s t) (hh : s.HistInv) : t.HistInv where
  ok := by rw [h.hist]; exact hh.ok
  owner := by rw [h.hist, h.grant]; exact hh.owner
  last := by rw [h.hist, h.modeLocked, h.ctrla]; exact hh.last

theorem exec_histInv {i : Instr} {s t : State} (hs : s.Inv) (hh : s.HistInv) (h : exec i s = .next t) : t.HistInv := by
  obtain ⟨new, appends, accesses⟩ := exec_appends h
  have scan : scanHist t.hist = scanHist s.hist := by
    rw [appends.hist, scanHist_append, scan_accesses (by rw [hh.owner]; exact accesses)]
  refine ⟨by rw [scan]; exact hh.ok, by rw [scan, exec_grant hs h]; exact hh.owner, fun hl => ?_⟩
  rw [scan] at hl ⊢
  obtain ⟨locked, last⟩ := hh.last hl
  obtain ⟨hl', hm⟩ := (exec_arbiter h).2 locked
  exact ⟨hl', by rw [hm]; exact last⟩

section
variable {s : State}

/-- The owner while an engine is granted (R105). -/
theorem State.HistInv.owner_granted (hh : s.HistInv) (hg : s.enEff = true) :
    (scanHist s.hist).owner = pers s.ctrla.mode := by
  rw [hh.owner, State.grant, if_pos hg]

theorem State.HistInv.owner_free (hh : s.HistInv) (hg : s.enEff = false) : (scanHist s.hist).owner = .none := by
  rw [hh.owner, grant_none_of_enEff hg]

theorem completeReset_histInv (hs : s.Inv) (hh : s.HistInv) : (completeReset s).HistInv := by
  have scan : scanHist (completeReset s).hist = { owner := .none, last := .none, ok := true } := by
    rw [completeReset_eq]
    cases hg : s.enEff
    · simp [scanHist_append, HistScan.add, hh.ok, hh.owner_free hg]
    · simp [scanHist_append, HistScan.add, hh.ok, hh.owner_granted hg, hs.i4 hg]
  exact ⟨by rw [scan], by rw [scan, completeReset_eq]; rfl, by rw [scan]; exact fun h => absurd rfl h⟩

theorem completeEnable_histInv (hs : s.Inv) (hh : s.HistInv) (hp : s.syncOp = .enable) :
    (completeEnable s).HistInv := by
  obtain ⟨he, hg⟩ := hs.i7 hp
  obtain ⟨hl, hm⟩ := hs.i3 he
  have samePersonality : (scanHist s.hist).last = .none ∨ (scanHist s.hist).last = pers s.ctrla.mode :=
    or_iff_not_imp_left.2 fun h => (hh.last h).2
  have scan : scanHist (completeEnable s).hist =
      { owner := pers s.ctrla.mode, last := pers s.ctrla.mode, ok := true } := by
    simp [completeEnable, scanHist_append, HistScan.add, hh.ok, hh.owner_free hg, hm, samePersonality]
  exact ⟨by rw [scan], by rw [scan]; rfl, by rw [scan]; exact fun _ => ⟨hl, rfl⟩⟩

theorem completeDisable_histInv (hs : s.Inv) (hh : s.HistInv) (hp : s.syncOp = .disable) :
    (completeDisable s).HistInv := by
  obtain ⟨-, hg⟩ := hs.i8 hp
  have scan : scanHist (completeDisable s).hist = { scanHist s.hist with owner := .none } := by
    simp [completeDisable, scanHist_append, HistScan.add, hh.ok, hh.owner_granted hg, hs.i4 hg]
  exact ⟨by rw [scan]; exact hh.ok, by rw [scan]; rfl, by rw [scan]; exact hh.last⟩

theorem completeCmd_histInv (hs : s.Inv) (hh : s.HistInv) (hp : s.syncOp = .cmd) : (completeCmd s).HistInv := by
  obtain ⟨hg, -, hc, -⟩ := hs.i5 hp
  obtain ⟨⟨role, code⟩, hc⟩ := Option.ne_none_iff_exists'.1 hc
  obtain ⟨hr, -⟩ := hs.role role code hc
  have scan : scanHist (completeCmd s).hist = scanHist s.hist := by
    rw [completeCmd_latched hc, scanHist_append, List.foldl_cons, List.foldl_nil, HistScan.add,
      hh.owner_granted hg, hr, beq_self_eq_true, Bool.and_true, ← hh.owner_granted hg]
  have grant : (completeCmd s).grant = s.grant := by rw [completeCmd_latched hc]; rfl
  refine ⟨by rw [scan]; exact hh.ok, by rw [scan, grant]; exact hh.owner, ?_⟩
  rw [scan, completeCmd_latched hc]
  exact hh.last

theorem syncComplete_histInv (hs : s.Inv) (hh : s.HistInv) : (syncComplete s).HistInv := by
  unfold syncComplete
  split
  case h_1 => exact hh
  case h_2 hp => exact completeReset_histInv hs hh
  case h_3 hp => exact completeEnable_histInv hs hh hp
  case h_4 hp => exact completeDisable_histInv hs hh hp
  case h_5 hp => exact completeCmd_histInv hs hh hp

end

theorem step_inv_histInv {s t : State} (h : step s = .next t) (hs : s.Inv ∧ s.HistInv) : t.Inv ∧ t.HistInv :=
  step_keeps (P := fun s => s.Inv ∧ s.HistInv) (fun k hs => ⟨k.inv hs.1, k.histInv hs.2⟩)
    (fun e hs => ⟨exec_inv hs.1 e, exec_histInv hs.1 hs.2 e⟩)
    (fun hs => ⟨syncComplete_inv hs.1, syncComplete_histInv hs.1 hs.2⟩) h hs

/-- Settles O35: the order of the history is kept together with the invariants it needs. -/
theorem stepKeepsHistoryInOrder : Obligations.StepKeepsHistoryInOrder := fun _ _ hs hh h =>
  (step_inv_histInv h ⟨hs, hh⟩).2

/-! Every state a run from hardware reset reaches (R170) -/

theorem reset_inv : State.reset.Inv := inv_of_idle rfl rfl rfl nofun rfl

theorem reset_histInv : State.reset.HistInv := ⟨rfl, rfl, fun h => absurd rfl h⟩

/-- Settles O33: nothing is pending or granted there, the history is empty and no request is in progress. -/
theorem invariantsHoldAtReset : Obligations.InvariantsHoldAtReset :=
  ⟨reset_inv, reset_histInv, nofun⟩

theorem reachable_inv_histInv {s : State} (h : Reachable s) : s.Inv ∧ s.HistInv := by
  induction h with
  | start handle turns =>
    have same : BlockSame State.reset { State.reset with handle := handle, schedule := turns } :=
      ⟨rfl, rfl, rfl, rfl, rfl, rfl, rfl, rfl, rfl⟩
    exact ⟨same.inv reset_inv, same.histInv reset_histInv⟩
  | step s t hs e ih => exact step_inv_histInv e ih

/-! What a history in order says of its grants and of its releases (R92, R106) -/

/-- Without an engine reset the personality granted last stays the only one that can be granted. -/
theorem scan_last {es : List Event} {c : HistScan} (hr : .engReset ∉ es) (hl : c.last ≠ .none)
    (h : (es.foldl HistScan.add c).ok = true) : (es.foldl HistScan.add c).last = c.last := by
  induction es generalizing c with
  | nil => rfl
  | cons e es ih =>
    obtain ⟨he, hes⟩ := not_or.1 (fun k => hr (List.mem_cons.2 k))
    have first : (c.add e).ok = true := scan_ok h
    have keeps : (c.add e).last = c.last := by
      cases e with
      | grant p => exact ((grant_inOrder first).2.resolve_left hl).symm
      | engReset => exact absurd rfl he
      | _ => rfl
    rw [List.foldl_cons, ih hes (by rw [keeps]; exact hl) h, keeps]

theorem switchNeedsReset_of_ok {h : List Event} (ok : (scanHist h).ok = true) : SwitchNeedsReset h := by
  rintro before between after p q rfl hne
  by_contra hr
  rw [scanHist_append, List.foldl_cons, List.foldl_append, List.foldl_cons] at ok
  have second := scan_ok ok
  have between_ok := scan_ok (es := [.grant q]) second
  obtain ⟨hp, -⟩ := grant_inOrder (scan_ok between_ok)
  have last := scan_last (c := (scanHist before).add (.grant p)) hr hp between_ok
  rcases (grant_inOrder second).2 with e | e
  · exact hp (last.symm.trans e)
  · exact hne (last.symm.trans e)

/-- Without a grant a free block stays free, and no access to it is in order. -/
theorem scan_quiet {es : List Event} {c : HistScan} (hg : ∀ q, .grant q ∉ es) (ho : c.owner = .none)
    (h : (es.foldl HistScan.add c).ok = true) {e : Event} (he : e ∈ es) (p : Personality) : ¬ e.IsAccessTo p := by
  induction es generalizing c with
  | nil => cases he
  | cons x es ih =>
    have first : (c.add x).ok = true := scan_ok h
    have free : (c.add x).owner = .none := by
      cases x with
      | grant q => exact absurd (List.mem_cons_self) (hg q)
      | release q => rfl
      | _ => exact ho
    rcases List.mem_cons.1 he with rfl | he
    · intro hp
      obtain ⟨granted, owner⟩ := access_inOrder hp first
      exact granted (owner.symm.trans ho)
    · exact ih (fun q k => hg q (List.mem_cons_of_mem _ k)) free h he

theorem quietWhileReleased_of_ok {h : List Event} (ok : (scanHist h).ok = true) : QuietWhileReleased h := by
  rintro before between after p rfl hg
  rw [scanHist_append, List.foldl_cons, List.foldl_append] at ok
  have quiet := @scan_quiet between _ hg rfl (scan_ok ok)
  exact ⟨fun q _ hm => quiet hm q rfl, fun q _ _ hm => quiet hm q rfl⟩

/-- Settles O36: by the order of the history after a step, and of every reached state. -/
theorem personalitySwitchNeedsReset : Obligations.PersonalitySwitchNeedsReset :=
  ⟨fun _ _ hs hh h => switchNeedsReset_of_ok (step_inv_histInv h ⟨hs, hh⟩).2.ok,
    fun _ h => switchNeedsReset_of_ok (reachable_inv_histInv h).2.ok⟩

/-- Settles O37: by the order of the history after a step, and of every reached state. -/
theorem noAccessForwardedWhileReleased : Obligations.NoAccessForwardedWhileReleased :=
  ⟨fun _ _ hs hh h => quietWhileReleased_of_ok (step_inv_histInv h ⟨hs, hh⟩).2.ok,
    fun _ h => quietWhileReleased_of_ok (reachable_inv_histInv h).2.ok⟩

end Sys2Proof.Machine
end

section
/-! Turns and steps (R9, R28, R100, R172): the guard every step passes, which turn runs, and what the block keeps over a
turn of an agent that is not SYNC and over a step of any. -/

namespace Sys2Proof.Machine

/-! Every step is guarded (R28, R172) -/

theorem exec_guarded (i : Instr) (s : State) : ∃ k, exec i s = whileLive s k := by
  cases i <;> exact ⟨_, rfl⟩

theorem runTurn_guarded (u : Turn) (s : State) : ∃ k, runTurn u s = whileLive s k := by
  cases u with
  | host w =>
    simp only [runTurn, hostStep]
    split
    · exact exec_guarded _ s
    · exact ⟨_, rfl⟩
  | sync | request r | seq => exact ⟨_, rfl⟩

theorem step_guarded (s : State) : ∃ k, step s = whileLive s k := by
  unfold step takeTurn
  split
  · exact runTurn_guarded _ _
  · unfold freeTurn
    split
    · exact ⟨_, rfl⟩
    · split_ifs <;> exact ⟨_, rfl⟩
    · exact ⟨_, rfl⟩
    · exact ⟨_, rfl⟩

/-- Settles O41: the guard stops every step and every transaction by the mark's name. -/
theorem markedStateIsQuiescent : Obligations.MarkedStateIsQuiescent := by
  intro s hc
  obtain ⟨k, hk⟩ := step_guarded s
  refine ⟨fun c hf => ⟨?_, fun i => ?_⟩, fun c hf hr => ⟨?_, fun i => ?_⟩⟩
  · rw [hk, whileLive_fault hc hf]
  · obtain ⟨j, hj⟩ := exec_guarded i s; rw [hj, whileLive_fault hc hf]
  · rw [hk, whileLive_refused hc hf hr]
  · obtain ⟨j, hj⟩ := exec_guarded i s; rw [hj, whileLive_refused hc hf hr]

/-- Settles O42: the guard asks for the clock first. -/
theorem noClockIsRefused : Obligations.NoClockIsRefused := by
  intro s hc
  obtain ⟨k, hk⟩ := step_guarded s
  refine ⟨by rw [hk, whileLive_noClk hc], fun i => ?_⟩
  obtain ⟨j, hj⟩ := exec_guarded i s
  rw [hj, whileLive_noClk hc]

/-! Which turn a step runs (logs 2, 6 and 7) -/

/-- Settles O57: the head of the schedule takes the turn, and a turn of the host decodes its word. -/
theorem stepRunsTheTurn : Obligations.StepRunsTheTurn := by
  intro s rest
  refine ⟨fun w i hs hw _ => ?_, step_turn, fun r => step_turn, step_turn⟩
  rw [step_turn hs, runTurn, hostStep, hw]

/-- Settles O58: the placed word is the head of the schedule, and taking its turn leaves the schedule as it was. -/
theorem placedWordRunsNext : Obligations.PlacedWordRunsNext := by
  intro s w i h
  have hw : decode (BitVec.ofNat 40 (w % 2 ^ 40)) = .ok i := by
    unfold decodeTableWord at h
    split at h <;> cases h
    assumption
  rw [State.withFetchWord, step_turn (State.offer_schedule s _), runTurn, hostStep]
  simp only [hw]
  rfl

theorem step_unscheduled {s : State} (h : s.schedule = []) : step s = freeTurn s := by
  simp only [step, takeTurn, h]

/-- Settles O59: the four cases of the step that nobody scheduled. -/
theorem stepWithNoTurnGiven : Obligations.StepWithNoTurnGiven := by
  intro s hs
  rw [step_unscheduled hs]
  refine ⟨fun hf hi live => ?_, fun hf hp => ?_, fun hf hi => ?_, fun hf hp => ⟨s.picks + 1, Nat.lt_succ_self _, ?_⟩⟩
  · simp only [freeTurn, State.syncBusy, hi, hf]; exact whileLive_live live _
  · simp only [freeTurn, (syncBusy_iff s).2 hp, hf]
  · obtain ⟨f, rest, hf⟩ := List.exists_cons_of_ne_nil hf
    simp only [freeTurn, State.syncBusy, hi, hf]; rfl
  · obtain ⟨f, rest, hf⟩ := List.exists_cons_of_ne_nil hf
    have both : freeTurn s = if Config.syncFirst s.handle s.picks then syncStep s.picked else seqStep s.picked := by
      simp only [freeTurn, (syncBusy_iff s).2 hp, hf]
    exact both

/-- Settles O60: the step of the chip replaces the one entry it steps. -/
theorem instancesAreIndependent : Obligations.InstancesAreIndependent := by
  intro k c c' h
  unfold Chip.stepAt at h
  split at h
  · cases h
  · rename_i s hs
    split at h <;> cases h
    rename_i t ht
    obtain ⟨hk, -⟩ := List.getElem?_eq_some_iff.1 hs
    exact ⟨List.length_set, fun j hj => List.getElem?_set_ne hj.symm, s, t, hs, ht, List.getElem?_set_self hk⟩

/-! Turns of the agents that are not SYNC (R100, section 3 of 20_memory.md) -/

theorem runLine_txn {ln : Line} {f : Frame} {rest : List Frame} {s t : State} (h : runLine ln f rest s = .next t) :
    BlockSame s t ∨ ∃ i u, exec i s = .next u ∧ BlockSame u t := by
  cases ln with
  | txn i | read x i =>
    simp only [runLine] at h
    split at h <;> cases h
    exact .inr ⟨i, _, ‹_›, afterLine_blockSame _ _⟩
  | skipIf c n | result v => cases h; exact .inl (goOn_blockSame _ s)
  | repollIf c =>
    cases h
    cases c
    · exact .inl (goOn_blockSame _ s)
    · exact .inl (pollAgain_blockSame _ _ _ s)
  | call r => cases h; exact .inl ⟨rfl, rfl, rfl, rfl, rfl, rfl, rfl, rfl, rfl⟩
  | setSpiInited v =>
    cases h
    have latched : BlockSame s { s with spiInited := v } := ⟨rfl, rfl, rfl, rfl, rfl, rfl, rfl, rfl, rfl⟩
    exact .inl (latched.trans (goOn_blockSame _ _))
  | refuseIf c code =>
    cases h
    cases c
    · exact .inl (goOn_blockSame _ s)
    · have refused : BlockSame s (s.refuse code) := ⟨rfl, rfl, rfl, rfl, rfl, rfl, rfl, rfl, rfl⟩
      exact .inl (refused.trans (endRequest_blockSame _ _))

/-- A turn of HOST or SEQ does at most one transaction to the block. -/
theorem runTurn_txn {u : Turn} {s t : State} (hu : u ≠ .sync) (h : runTurn u s = .next t) :
    BlockSame s t ∨ ∃ i v, exec i s = .next v ∧ BlockSame v t := by
  cases u with
  | host w =>
    simp only [runTurn, hostStep] at h
    split at h
    · exact .inr ⟨_, t, h, .refl t⟩
    · cases (whileLive_next h).2; exact .inl ⟨rfl, rfl, rfl, rfl, rfl, rfl, rfl, rfl, rfl⟩
  | sync => exact absurd rfl hu
  | request r => cases (whileLive_next h).2; exact .inl ⟨rfl, rfl, rfl, rfl, rfl, rfl, rfl, rfl, rfl⟩
  | seq =>
    have k := (whileLive_next h).2
    split at k
    · cases k; exact .inl (.refl s)
    · split at k
      · exact runLine_txn k
      · cases k; exact .inl (goOn_blockSame _ s)

/-- While a synchronisation is pending a transaction leaves it, its command and the effective enable alone (R70). -/
theorem exec_pending {i : Instr} {s t : State} (hp : s.syncOp ≠ .none) (h : exec i s = .next t) :
    t.syncOp = s.syncOp ∧ t.cmdPending = s.cmdPending ∧ t.enEff = s.enEff := by
  cases exec_transaction h with
  | access hc ht => rw [ht]; exact ⟨rfl, rfl, rfl⟩
  | faulted hc _ => exact ⟨rfl, rfl, rfl⟩
  | ctrla d hi | ctrlb d hi | baud d hi | addr d hi => exact absurd hi hp

/-- Settles O28: such a turn does at most one transaction, and no transaction touches what is pending. -/
theorem onlySyncEndsSynchronisation : Obligations.OnlySyncEndsSynchronisation := by
  intro u s t hu hp h
  rcases runTurn_txn hu h with k | ⟨i, v, e, k⟩
  · exact ⟨k.syncOp, k.cmdPending, k.enEff⟩
  · obtain ⟨ho, hc, he⟩ := exec_pending hp e
    exact ⟨k.syncOp.trans ho, k.cmdPending.trans hc, k.enEff.trans he⟩

/-- Settles O29: such a turn does at most one transaction, and no transaction touches the grant. -/
theorem grantChangesOnlyBySync : Obligations.GrantChangesOnlyBySync := by
  intro u s t hs hu h
  rcases runTurn_txn hu h with k | ⟨i, v, e, k⟩
  · exact k.grant
  · exact k.grant.trans (exec_grant hs e)

/-! What the granted engine sees (R108) -/

theorem BlockSame.cfg {s t : State} (h : BlockSame s t) : t.cfg = s.cfg := by
  simp only [State.cfg, h.ctrla, h.ctrlb, h.baud, h.addr]

theorem enEff_of_grant {s : State} (h : s.grant ≠ .none) : s.enEff = true := by
  by_contra he
  exact h (grant_none_of_enEff (Bool.eq_false_iff.2 he))

/-- The configuration bundle apart from ACKACT. -/
def State.cfgButAckact (s : State) : EngineCfg := { s.cfg with ackact := false }

/-- On an enabled block a write reaches no field of the bundle but ACKACT (R71 to R74). -/
theorem exec_cfg {i : Instr} {s t : State} (hs : s.Inv) (hg : s.enEff = true) (h : exec i s = .next t) :
    t.cfgButAckact = s.cfgButAckact := by
  have enabled (hi : s.syncOp = .none) : s.ctrla.enable = true := (hs.i2 hi).symm.trans hg
  cases exec_transaction h with
  | access hc ht => rw [ht]; rfl
  | faulted hc hp => rfl
  | ctrla d hi =>
    cases hr : wSwrst d with
    | true => rw [writeCtrla_reset hr]; rfl
    | false =>
      cases hw : wEnable d with
      | true => rw [writeCtrla_stay hr (enabled hi) hw]
      | false => rw [writeCtrla_disable hr (enabled hi) hw]; rfl
  | ctrlb d hi =>
    have hb : ctrlbAfter d s = { s.ctrlb with ackact := wAckact d } := if_pos (enabled hi)
    rcases latchCommand_cases (wCmd d) (configureB d s) with e | ⟨role, -, -, e⟩ <;> rw [e, configureB_eq, hb] <;> rfl
  | baud d hi => rw [if_pos (enabled hi)]
  | addr d hi => rw [if_pos (enabled hi)]

/-- A completion between two states with a grant is that of a command: it changes no register. -/
theorem syncComplete_granted {s : State} (hs : s.Inv) (hg : s.enEff = true) (hg' : (syncComplete s).enEff = true) :
    (syncComplete s).cfgButAckact = s.cfgButAckact ∧ (syncComplete s).grant = s.grant := by
  unfold syncComplete at hg' ⊢
  split at hg'
  case h_1 hp => exact ⟨rfl, rfl⟩
  case h_2 hp => rw [completeReset_eq] at hg'; cases hg'
  case h_3 hp => exact absurd ((hs.i7 hp).2.symm.trans hg) nofun
  case h_4 hp => cases hg'
  case h_5 hp =>
    obtain ⟨-, -, hc, -⟩ := hs.i5 hp
    obtain ⟨⟨role, code⟩, hc⟩ := Option.ne_none_iff_exists'.1 hc
    rw [completeCmd_latched hc]
    exact ⟨rfl, rfl⟩

/-- Settles O38: the bundle but ACKACT, and the grant, over the three ways a step can touch the block. -/
theorem grantedEngineSeesConstantConfig : Obligations.GrantedEngineSeesConstantConfig := by
  intro s t hs h hg ht
  have kept : t.cfgButAckact = s.cfgButAckact ∧ t.grant = s.grant := by
    cases step_block h with
    | same k => exact ⟨by rw [State.cfgButAckact, k.cfg]; rfl, k.grant⟩
    | txn i u v hu e hv =>
      have hgu : u.enEff = true := hu.enEff.trans (enEff_of_grant hg)
      have hcfg := exec_cfg (hu.inv hs) hgu e
      rw [State.cfgButAckact, State.cfgButAckact, hu.cfg, ← hv.cfg] at hcfg
      exact ⟨hcfg, hv.grant.trans ((exec_grant (hu.inv hs) e).trans hu.grant)⟩
    | sync u hu k =>
      have hgu : u.enEff = true := hu.enEff.trans (enEff_of_grant hg)
      obtain ⟨hcfg, hgr⟩ := syncComplete_granted (hu.inv hs) hgu (k.enEff.symm.trans (enEff_of_grant ht))
      rw [State.cfgButAckact, State.cfgButAckact, hu.cfg, ← k.cfg] at hcfg
      exact ⟨hcfg, k.grant.trans (hgr.trans hu.grant)⟩
  refine ⟨?_, kept.2⟩
  have hcfg := congrArg (fun c : EngineCfg => { c with ackact := s.cfg.ackact }) kept.1
  exact hcfg

/-! MODE and its lock (R27, R106) -/

/-- A completion unlocks MODE only as the completion of a reset, which leaves it 0 (R101). -/
theorem syncComplete_locked {s : State} (hl : s.modeLocked = true) :
    ((syncComplete s).modeLocked = true ∧ (syncComplete s).ctrla.mode = s.ctrla.mode) ∨
    ((syncComplete s).modeLocked = false ∧ (syncComplete s).ctrla.mode = 0#3 ∧ s.syncOp = .reset ∧
      ∃ h, (syncComplete s).hist = h ++ [.engReset]) := by
  unfold syncComplete
  split
  case h_2 hp =>
    rw [completeReset_eq]
    refine .inr ⟨rfl, rfl, hp, ?_⟩
    split_ifs
    · exact ⟨s.hist ++ [.release (pers s.ctrla.mode)], by simp⟩
    · exact ⟨s.hist, rfl⟩
  case h_5 => exact .inl (by unfold completeCmd; split <;> exact ⟨hl, rfl⟩)
  all_goals exact .inl ⟨hl, rfl⟩

/-- Settles O39: a transaction on a locked MODE changes neither it nor its lock, and a completion only as a reset. -/
theorem modeUnlockedOnlyByReset : Obligations.ModeUnlockedOnlyByReset := by
  intro s t h hl
  have keeps (hl' : t.modeLocked = true) (hm : t.ctrla.mode = s.ctrla.mode) :
      (t.modeLocked = false → s.syncOp = .reset ∧ ∃ h, t.hist = h ++ [.engReset]) ∧
      (t.ctrla.mode ≠ s.ctrla.mode → t.modeLocked = false ∧ t.ctrla.mode = 0#3) :=
    ⟨fun hn => absurd (hl'.symm.trans hn) nofun, fun hn => absurd hm hn⟩
  cases step_block h with
  | same k => exact keeps (k.modeLocked.trans hl) (by rw [k.ctrla])
  | txn i u v hu e hv =>
    obtain ⟨hl', hm⟩ := (exec_arbiter e).2 (hu.modeLocked.trans hl)
    exact keeps (hv.modeLocked.trans hl') (by rw [hv.ctrla, hm, hu.ctrla])
  | sync u hu k =>
    rcases syncComplete_locked (hu.modeLocked.trans hl) with ⟨hl', hm⟩ | ⟨hl', hm, hp, hh⟩
    · exact keeps (k.modeLocked.trans hl') (by rw [k.ctrla, hm, hu.ctrla])
    · exact ⟨fun _ => ⟨hu.syncOp.symm.trans hp, by rw [k.hist]; exact hh⟩,
        fun _ => ⟨k.modeLocked.trans hl', by rw [k.ctrla, hm]⟩⟩

end Sys2Proof.Machine
end

section
/-! Registers, words and `seq_state` (R22 to R29, R45, R75, R111, R155): what a written word stores, what is read back,
and the rows of the table of transitions. -/

namespace Sys2Proof.Machine

/-! The register values a written word holds (R61, R75) -/

/-- The fields of CTRLA in a written word (R22). -/
def ctrlaOf (d : Word) : CtrlA where
  swrst := wSwrst d
  enable := wEnable d
  mode := wMode d
  sampr := wSampr d
  pads := wPads d
  form := wForm d
  cpha := wCpha d
  cpol := wCpol d
  dord := wDord d

/-- The fields of CTRLB in a written word, its command apart (R23). -/
def ctrlbOf (d : Word) : CtrlB where
  chsize := wChsize d
  sbmode := wSbmode d
  pmode := wPmode d
  ackact := wAckact d

@[simp] theorem ctrlaOf_ctrlaWord (c : CtrlA) : ctrlaOf (ctrlaWord c) = c := by simp [ctrlaOf]
@[simp] theorem ctrlbOf_ctrlbWord (c : CtrlB) : ctrlbOf (ctrlbWord c) = c := by simp [ctrlbOf]

/-! A field cut out and put back is the word under the field's mask -/

theorem flagAt_getLsbD_eq (d : Word) {i : Nat} (hi : i < 32) : flagAt (d.getLsbD i) i = d &&& flagAt true i := by
  apply BitVec.eq_of_getLsbD_eq; intro j hj
  rw [BitVec.getLsbD_and, flagAt_getLsbD, flagAt_getLsbD]
  by_cases h : i = j
  · subst h; simp [hi]
  · simp [h]

theorem fieldAt_extractLsb'_eq (d : Word) (i n : Nat) :
    fieldAt (d.extractLsb' i n) i = d &&& fieldAt (BitVec.allOnes n) i := by
  apply BitVec.eq_of_getLsbD_eq; intro j hj
  rw [BitVec.getLsbD_and, fieldAt_getLsbD, fieldAt_getLsbD]
  by_cases h : i ≤ j
  · simp [h, hj, Nat.add_sub_cancel' h, Bool.and_comm]
  · simp [h]

theorem ctrlaWord_ctrlaOf (d : Word) : ctrlaWord (ctrlaOf d) = d &&& 0x7F3FE01F#32 := by
  simp only [ctrlaWord, ctrlaOf, wSwrst, wEnable, wMode, wSampr, wPads, wForm, wCpha, wCpol, wDord,
    fieldAt_extractLsb'_eq, flagAt_getLsbD_eq, Nat.reduceLT, ← BitVec.and_or_distrib_left]
  rfl

theorem ctrlbWord_ctrlbOf (d : Word) : ctrlbWord (ctrlbOf d) = d &&& 0x00042047#32 := by
  simp only [ctrlbWord, ctrlbOf, wChsize, wSbmode, wPmode, wAckact, fieldAt_extractLsb'_eq, flagAt_getLsbD_eq,
    Nat.reduceLT, ← BitVec.and_or_distrib_left]
  rfl

theorem baudWord_wBaud (d : Word) : baudWord (wBaud d) = d &&& 0x0000FFFF#32 := fieldAt_extractLsb'_eq d 0 16

theorem addrWord_of_written (d : Word) : addrWord { gencen := wGencen d, addr := wAddr d } = d &&& 0x000000FF#32 := by
  simp only [addrWord, wGencen, wAddr, fieldAt_extractLsb'_eq, flagAt_getLsbD_eq, Nat.reduceLT,
    ← BitVec.and_or_distrib_left]
  rfl

/-! What a control write stores in a disabled block -/

section
variable {d : Word} {s : State} {c : CtrlA}

theorem modeAfter_unlocked (he : s.ctrla.enable = false) (hl : s.modeLocked = false) : modeAfter d s = wMode d :=
  if_pos ⟨he, hl⟩

theorem modeAfter_eq (hm : s.modeLocked = true → wMode d = s.ctrla.mode) (he : s.ctrla.enable = false) :
    modeAfter d s = wMode d := by
  cases hl : s.modeLocked with
  | true => rw [modeAfter_locked hl, hm hl]
  | false => exact modeAfter_unlocked he hl

theorem configureA_eq (hm : modeAfter d s = wMode d) : configureA d s =
    { s with ctrla := { ctrlaOf d with swrst := s.ctrla.swrst, enable := s.ctrla.enable } } := by
  rw [configureA, hm]; rfl

/-- A word without SWRST and ENABLE, with the locked MODE or any while it is unlocked, is stored whole (R71). -/
theorem writeCtrla_stores (hd : ctrlaOf d = c) (hr : c.swrst = false) (hw : c.enable = false)
    (hm : s.modeLocked = true → c.mode = s.ctrla.mode) (hs : s.ctrla.swrst = false) (he : s.ctrla.enable = false) :
    writeCtrla d s = { s with ctrla := c } := by
  subst hd
  rw [writeCtrla_configure hr he hw, configureA_eq (modeAfter_eq hm he), hs.trans hr.symm, he.trans hw.symm]

/-- A word with ENABLE and the fields of the block as they are enables it and stores nothing new (R71). -/
theorem writeCtrla_enables (hd : ctrlaOf d = { s.ctrla with enable := true }) (hs : s.ctrla.swrst = false)
    (he : s.ctrla.enable = false) (hm : pers s.ctrla.mode ≠ .none) : writeCtrla d s = startEnable s := by
  obtain ⟨hr, hw, hmode, -⟩ := CtrlA.mk.inj hd
  have mode : modeAfter d s = wMode d := modeAfter_eq (fun _ => hmode) he
  rw [writeCtrla_enable (hr.trans hs) he hw (by rw [mode, hmode]; exact hm), configureA_eq mode, hd]

theorem ctrlbAfter_disabled (he : s.ctrla.enable = false) : ctrlbAfter d s = ctrlbOf d :=
  if_neg (by rw [he]; nofun)

theorem writeCtrlb_ctrlb (d : Word) (s : State) :
    (latchCommand (wCmd d) (configureB d s)).ctrlb = ctrlbAfter d s := by
  rcases latchCommand_cases (wCmd d) (configureB d s) with e | ⟨role, -, -, e⟩ <;> rw [e, configureB_eq]

/-- A word with CHSIZE, SBMODE and PMODE of the block as they are is stored alike enabled and disabled (R72). -/
theorem ctrlbAfter_keeps {v : Bool} (hd : ctrlbOf d = { s.ctrlb with ackact := v }) :
    ctrlbAfter d s = { s.ctrlb with ackact := v } := by
  have hv : wAckact d = v := congrArg CtrlB.ackact hd
  unfold ctrlbAfter
  split
  · rw [hv]
  · exact hd

end

/-- Settles O10: the image of a register holds its own fields, ENABLE as it is, and no command. -/
theorem writingTheReadValueChangesNothing : Obligations.WritingTheReadValueChangesNothing := by
  intro s t h hs hi
  have hr : s.ctrla.swrst = false := hs.idle_swrst (by rw [hi]; nofun)
  refine ⟨fun e => ?_, fun e => ?_, fun e => ?_, fun e => ?_⟩ <;> cases (whileLive_next e).2 <;>
    rw [State.answer_rdata]
  · rw [exec_wrCtrla_idle h hi]
    cases he : s.ctrla.enable with
    | true => rw [writeCtrla_stay (by rw [wSwrst_ctrlaWord, hr]) he (by rw [wEnable_ctrlaWord, he])]
    | false => rw [writeCtrla_stores (ctrlaOf_ctrlaWord _) hr he (fun _ => rfl) hr he]
  · rw [exec_wrCtrlb_drops h hi (.inl (wCmd_ctrlbWord _))]
    rw [ctrlbAfter_keeps (ctrlbOf_ctrlbWord s.ctrlb)]
  · rw [exec_wrBaud_idle h hi, wBaud_baudWord]
    split <;> rfl
  · rw [exec_wrAddr_idle h hi, wGencen_addrWord, wAddr_addrWord]
    split <;> rfl

/-- The two low bits of a word, SWRST and ENABLE, are the field of width 2 there. -/
theorem and_mask_of_low_zero {v : Word} (h : v.extractLsb' 0 2 = 0#2) :
    v &&& 0x7F3FE01F#32 = v &&& 0x7F3FE01C#32 := by
  have low : v &&& 0x00000003#32 = 0#32 := by
    have := fieldAt_extractLsb'_eq v 0 2
    rw [h] at this
    exact this.symm
  have split : (0x7F3FE01F#32 : Word) = 0x7F3FE01C#32 ||| 0x00000003#32 := by decide
  rw [split, BitVec.and_or_distrib_left, low, BitVec.or_zero]

theorem low_zero_bits {v : Word} (h : v.extractLsb' 0 2 = 0#2) : wSwrst v = false ∧ wEnable v = false := by
  have bit (i : Nat) (hi : i < 2) : v.getLsbD i = false := by
    have e := congrArg (fun w : BitVec 2 => w.getLsbD i) h
    simpa [hi] using e
  exact ⟨bit 0 (by decide), bit 1 (by decide)⟩

/-- Settles O19: what each write stores in a disabled, unlocked block is read back as the word under the mask. -/
theorem readAfterWriteSeesStoredFields : Obligations.ReadAfterWriteSeesStoredFields := by
  intro v s h hi he hr hl
  have live {t : State} (hc : t.clkReady = s.clkReady) (hf : t.fault = s.fault) (hx : t.refused = s.refused) :
      t.Live := ⟨hc.trans h.clk, hf.trans h.noFault, hx.trans h.noRefusal⟩
  refine ⟨fun hv => ?ctrla, ?ctrlb, ?baud, ?addr⟩
  case ctrla =>
    obtain ⟨hv0, hv1⟩ := low_zero_bits hv
    refine ⟨{ s with ctrla := ctrlaOf v }, _, ?_, exec_rdCtrla_live (live rfl rfl rfl), ?_⟩
    · exact (exec_wrCtrla_idle h hi).trans
        (by rw [writeCtrla_stores rfl hv0 hv1 (fun k => absurd (hl.symm.trans k) nofun) hr he])
    · rw [State.answer_rdata, ctrlaWord_ctrlaOf, and_mask_of_low_zero hv]
  case ctrlb =>
    have written := exec_wrCtrlb_idle h hi v
    obtain ⟨hf, hx⟩ := writeCtrlb_marks v s
    have hlive := live (exec_seqSame written).clkReady hf hx
    refine ⟨_, _, written, exec_rdCtrlb_live hlive, ?_⟩
    rw [State.answer_rdata, writeCtrlb_ctrlb, ctrlbAfter_disabled he, ctrlbWord_ctrlbOf]
  case baud =>
    refine ⟨{ s with baud := wBaud v }, _, ?_, exec_rdBaud_live (live rfl rfl rfl), ?_⟩
    · exact (exec_wrBaud_idle h hi v).trans (by rw [he]; rfl)
    · rw [State.answer_rdata, baudWord_wBaud]
  case addr =>
    refine ⟨{ s with addr := { gencen := wGencen v, addr := wAddr v } }, _, ?_, exec_rdAddr_live (live rfl rfl rfl), ?_⟩
    · exact (exec_wrAddr_idle h hi v).trans (by rw [he]; rfl)
    · rw [State.answer_rdata, addrWord_of_written]

/-- Settles O21: bit 15 is SYNCBUSY, and with nothing pending the invariants say the rest. -/
theorem statusClearMeansFullEffect : Obligations.StatusClearMeansFullEffect := by
  intro s t hs h hb
  cases (whileLive_next h).2
  rw [State.drawn_rdata, State.answer_rdata, statusWord_bit15] at hb
  have hi : s.syncOp = .none := by
    by_contra hp; rw [(syncBusy_iff s).2 hp] at hb; cases hb
  exact ⟨hi, hs.idle_swrst (by rw [hi]; nofun), hs.i2 hi, hs.idle_cmd hi⟩

/-! The grant by MODE (R29, R105) -/

theorem grant_of_enEff {s : State} (h : s.enEff = true) : s.grant = pers s.ctrla.mode := if_pos h

theorem pers_eq_none {m : BitVec 3} : m ≠ 1#3 → m ≠ 3#3 → m ≠ 4#3 → m ≠ 5#3 → pers m = .none := by
  revert m; decide

/-- Settles O30: the table of MODE codes, and the count of the engine enables. -/
theorem arbiterGrantsAtMostOne : Obligations.ArbiterGrantsAtMostOne := by
  intro s
  refine ⟨grant_none_of_enEff, ?_, ?_, ?_, ?_, fun h1 h3 h4 h5 => ?_, engineEnables_count s⟩
  case refine_5 =>
    cases he : s.enEff with
    | false => exact grant_none_of_enEff he
    | true => rw [grant_of_enEff he, pers_eq_none h1 h3 h4 h5]
  all_goals intro he hm; rw [grant_of_enEff he, hm]; rfl

/-! The order of the checks (R155) -/

/-- A word of the host with the header byte of CTRLA is a CTRLA write of its low 32 bits (R62). -/
theorem hostStep_wrCtrla {w : TxnWord} (hw : w.extractLsb' 32 8 = 0x80#8) (s : State) :
    hostStep w s = exec (.wrCtrla (w.extractLsb' 0 32)) s := by
  have hd : decode w = .ok (.wrCtrla (w.extractLsb' 0 32)) := decode_write hw rfl rfl rfl
  rw [hostStep, hd]

theorem low_bit {w : TxnWord} {i : Nat} (hi : i < 32) : (w.extractLsb' 0 32).getLsbD i = w.getLsbD i := by
  simp [hi]

/-- Settles O44: the decoder's check, then the sync check, then the reset, then the refusal. -/
theorem checksComeInOrder : Obligations.ChecksComeInOrder := by
  intro w s h
  refine ⟨fun hw _ => hostStep_invalid h hw, fun hw _ hp => ?_, fun hw hr _ hi _ _ => ?_,
    fun hw hr he hi hs hl hm => ?_⟩ <;> rw [hostStep_wrCtrla hw]
  · exact exec_controlWrite_pending h hp rfl
  · rw [exec_wrCtrla_idle h hi, writeCtrla_reset ((low_bit (by decide)).trans hr)]; rfl
  · rw [exec_wrCtrla_idle h hi, writeCtrla_refuse ((low_bit (by decide)).trans hr) hs ((low_bit (by decide)).trans he)
      (by rw [modeAfter_locked hl]; exact hm), h.refuse_eq]

/-! The seven values of `seq_state`, and the rows of the table of transitions (R29, R111) -/

section
variable {s : State} {d : Word}

/-- What each value of `seq_state` says of the block (R29). -/
def SeqState.Says (s : State) : SeqState → Prop
  | .disabled => s.syncOp = .none ∧ s.ctrla.enable = false ∧ s.modeLocked = true
  | .resetting => s.syncOp = .reset
  | .postreset => s.syncOp = .none ∧ s.ctrla.enable = false ∧ s.modeLocked = false ∧ pers s.ctrla.mode = .none
  | .configured => s.syncOp = .none ∧ s.ctrla.enable = false ∧ s.modeLocked = false ∧ pers s.ctrla.mode ≠ .none
  | .enabling => s.syncOp = .enable
  | .enabled => s.syncOp = .cmd ∨ s.syncOp = .none ∧ s.ctrla.enable = true
  | .disabling => s.syncOp = .disable

theorem seqState_says (s : State) : s.seqState.Says s := by
  unfold State.seqState
  cases hp : s.syncOp with
  | none =>
    cases he : s.ctrla.enable <;> cases hl : s.modeLocked <;> by_cases hm : pers s.ctrla.mode = .none <;>
      simp [SeqState.Says, hp, he, hl, hm]
  | cmd => exact .inl hp
  | reset | enable | disable => exact hp

theorem seqState_configured (hi : s.syncOp = .none) (he : s.ctrla.enable = false) (hl : s.modeLocked = false)
    (hm : pers s.ctrla.mode ≠ .none) : s.seqState = .configured := by
  simp [State.seqState, hi, he, hl, hm]

/-- An unlocked, disabled block that a word configures shows the personality written (R71). -/
theorem exec_configure_unlocked (h : s.Live) (hi : s.syncOp = .none) (he : s.ctrla.enable = false)
    (hl : s.modeLocked = false) (hr : wSwrst d = false) (hw : wEnable d = false) :
    ∃ t, exec (.wrCtrla d) s = .next t ∧
      t.seqState = if pers (wMode d) = .none then .postreset else .configured := by
  refine ⟨configureA d s, by rw [exec_wrCtrla_idle h hi, writeCtrla_configure hr he hw], ?_⟩
  have mode : (configureA d s).ctrla.mode = wMode d := modeAfter_unlocked he hl
  split_ifs with hm
  · exact seqState_postreset hi he hl (by rw [mode]; exact hm)
  · exact seqState_configured hi he hl (by rw [mode]; exact hm)

/-- An enable of a disabled block, by the personality MODE then selects (R71). -/
theorem exec_enable (h : s.Live) (hi : s.syncOp = .none) (he : s.ctrla.enable = false) (hr : wSwrst d = false)
    (hw : wEnable d = true) (hm : pers (modeAfter d s) ≠ .none) :
    ∃ t, exec (.wrCtrla d) s = .next t ∧ t.seqState = .enabling :=
  ⟨_, by rw [exec_wrCtrla_idle h hi, writeCtrla_enable hr he hw hm], rfl⟩

/-- A refused enable leaves the registers and `seq_state` as they were (R71, R150). -/
theorem exec_refused_enable (h : s.Live) (hi : s.syncOp = .none) (he : s.ctrla.enable = false)
    (hr : wSwrst d = false) (hw : wEnable d = true) (hm : pers (modeAfter d s) = .none) :
    ∃ t, exec (.wrCtrla d) s = .next t ∧ t.seqState = s.seqState ∧ t.ctrla = s.ctrla ∧
      t.refused = some .enableNone :=
  ⟨{ s with refused := some .enableNone },
    by rw [exec_wrCtrla_idle h hi, writeCtrla_refuse hr he hw hm, h.refuse_eq], rfl, rfl, rfl⟩

theorem exec_wrCtrlb_seqState (h : s.Live) (hs : s.Inv) :
    ∃ t, exec (.wrCtrlb d) s = .next t ∧ t.seqState = s.seqState := by
  by_cases hi : s.syncOp = .none
  · refine ⟨_, exec_wrCtrlb_idle h hi d, ?_⟩
    rcases latchCommand_cases (wCmd d) (configureB d s) with e | ⟨role, hg, -, e⟩
    · rw [e, configureB_eq]; rfl
    · have granted : s.grant ≠ .none := by
        rintro hn; rw [configureB_grant, hn] at hg; cases hg
      rw [e, seqState_enabled hi ((hs.i2 hi).symm.trans (enEff_of_grant granted))]; rfl
  · exact ⟨_, exec_controlWrite_pending h hi rfl, rfl⟩

theorem exec_wrBaud_seqState (h : s.Live) : ∃ t, exec (.wrBaud d) s = .next t ∧ t.seqState = s.seqState := by
  by_cases hi : s.syncOp = .none
  · exact ⟨_, exec_wrBaud_idle h hi d, by split <;> rfl⟩
  · exact ⟨_, exec_controlWrite_pending h hi rfl, rfl⟩

theorem exec_wrAddr_seqState (h : s.Live) : ∃ t, exec (.wrAddr d) s = .next t ∧ t.seqState = s.seqState := by
  by_cases hi : s.syncOp = .none
  · exact ⟨_, exec_wrAddr_idle h hi d, by split <;> rfl⟩
  · exact ⟨_, exec_controlWrite_pending h hi rfl, rfl⟩

end

/-- Settles O31: row by row, from what the row's state says of the block to the body of the write or the completion. -/
theorem seqStateTransitions : Obligations.SeqStateTransitions := by
  intro d s m h hs hm
  replace hm : m = pers (wMode d) := hm
  subst hm
  have block {q : SeqState} (hq : s.seqState = q) : q.Says s := hq ▸ seqState_says s
  have unlocked (q : s.seqState = .postreset ∨ s.seqState = .configured) :
      s.syncOp = .none ∧ s.ctrla.enable = false ∧ s.modeLocked = false := by
    rcases q with q | q <;> obtain ⟨hi, he, hl, -⟩ := block q <;> exact ⟨hi, he, hl⟩
  have enables (q : s.seqState = .postreset ∨ s.seqState = .configured) (hr : wSwrst d = false)
      (hw : wEnable d = true) (hm : pers (wMode d) ≠ .none) :
      ∃ t, exec (.wrCtrla d) s = .next t ∧ t.seqState = .enabling := by
    obtain ⟨hi, he, hl⟩ := unlocked q
    exact exec_enable h hi he hr hw (by rw [modeAfter_unlocked he hl]; exact hm)
  have refuses (q : s.seqState = .postreset ∨ s.seqState = .configured) (hr : wSwrst d = false)
      (hw : wEnable d = true) (hm : pers (wMode d) = .none) :
      ∃ t, exec (.wrCtrla d) s = .next t ∧ t.seqState = s.seqState ∧ t.ctrla = s.ctrla ∧
        t.refused = some .enableNone := by
    obtain ⟨hi, he, hl⟩ := unlocked q
    exact exec_refused_enable h hi he hr hw (by rw [modeAfter_unlocked he hl]; exact hm)
  have configures (q : s.seqState = .postreset ∨ s.seqState = .configured) (hr : wSwrst d = false)
      (hw : wEnable d = false) : ∃ t, exec (.wrCtrla d) s = .next t ∧
        t.seqState = if pers (wMode d) = .none then .postreset else .configured := by
    obtain ⟨hi, he, hl⟩ := unlocked q
    exact exec_configure_unlocked h hi he hl hr hw
  refine ⟨fun hi hr => ?_, fun q => ?_, fun q hr hw hm => ?_, fun q hr hw hm => ?_, fun q hr hw hm => ?_,
    fun q hr hw hm => ?_, fun q hr hw hm => ?_, fun q hr hw hm => ?_, fun q hr hw hm => ?_, fun q hr hw => ?_,
    fun q hr hw hm => ?_, fun q hr hw hm => ?_, fun q => ?_, fun q hi hr hw => ?_, fun q hi hr hw => ?_,
    fun q hi hc hg => ?_, fun hp => ?_, fun q => ?_, exec_wrCtrlb_seqState h hs, exec_wrBaud_seqState h,
    exec_wrAddr_seqState h⟩
  · exact ⟨_, by rw [exec_wrCtrla_idle h hi, writeCtrla_reset hr], rfl⟩
  · exact ⟨_, syncStep_reset h (block q), by rw [completeReset_eq]; exact seqState_postreset rfl rfl rfl rfl⟩
  · simpa only [if_neg hm] using configures (.inl q) hr hw
  · exact enables (.inl q) hr hw hm
  · obtain ⟨t, e, hq, -, hx⟩ := refuses (.inl q) hr hw hm
    exact ⟨t, e, hq.trans q, hx⟩
  · simpa only [if_pos hm] using configures (.inr q) hr hw
  · simpa only [if_neg hm] using configures (.inr q) hr hw
  · exact enables (.inr q) hr hw hm
  · obtain ⟨t, e, hq, ha, hx⟩ := refuses (.inr q) hr hw hm
    exact ⟨t, e, hq.trans q, ha, hx⟩
  · obtain ⟨hi, he, hl⟩ := block q
    exact ⟨configureA d s, by rw [exec_wrCtrla_idle h hi, writeCtrla_configure hr he hw], seqState_disabled hi he hl,
      modeAfter_locked hl d⟩
  · obtain ⟨hi, he, hl⟩ := block q
    exact exec_enable h hi he hr hw (by rw [modeAfter_locked hl]; exact hm)
  · obtain ⟨hi, he, hl⟩ := block q
    obtain ⟨t, e, hq, -, hx⟩ := exec_refused_enable h hi he hr hw (by rw [modeAfter_locked hl]; exact hm)
    exact ⟨t, e, hq.trans q, hx⟩
  · exact ⟨_, syncStep_enable h (block q), seqState_enabled rfl (hs.i7 (block q)).1⟩
  · obtain ⟨-, he⟩ := (block q).resolve_left (by rw [hi]; nofun)
    exact ⟨s, by rw [exec_wrCtrla_idle h hi, writeCtrla_stay hr he hw], q⟩
  · obtain ⟨-, he⟩ := (block q).resolve_left (by rw [hi]; nofun)
    exact ⟨_, by rw [exec_wrCtrla_idle h hi, writeCtrla_disable hr he hw], rfl⟩
  · obtain ⟨role, hr⟩ : ∃ role, roleOf s.grant = some role := by
      rcases hg with hg | hg <;> rw [hg] <;> exact ⟨_, rfl⟩
    exact ⟨_, exec_wrCtrlb_latches h hi hc hr, rfl, rfl⟩
  · obtain ⟨-, he, hc, -⟩ := hs.i5 hp
    obtain ⟨⟨role, code⟩, hc⟩ := Option.ne_none_iff_exists'.1 hc
    exact ⟨_, syncStep_cmd h hp, by rw [completeCmd_latched hc]; exact seqState_enabled rfl he, rfl⟩
  · obtain ⟨he, hg⟩ := hs.i8 (block q)
    exact ⟨_, syncStep_disable h (block q), seqState_disabled rfl he (hs.locked hg)⟩

end Sys2Proof.Machine
end

section
/-! The sequencer (R21, R120 to R122, R138). A step pointer that has passed the last line is unwound at once, so every
pointer stays on a line; the last line of a wait goes on, goes round or times out; a mark ends the request. -/

namespace Sys2Proof.Machine

/-! The lines of an expansion (R120) -/

theorem expansion_length (l : Locals) (b : Bool) (r : Request) : (expansion l b r).length = lineCount r := by
  cases r <;> rfl

theorem lineCount_pos (r : Request) : 0 < lineCount r := by
  cases r <;> exact Nat.succ_pos _

theorem line_inRange {l : Locals} {b : Bool} {r : Request} {k : Nat} {ln : Line}
    (h : (expansion l b r)[k]? = some ln) : k < lineCount r := by
  obtain ⟨hk, -⟩ := List.getElem?_eq_some_iff.1 h
  rwa [expansion_length] at hk

/-! Every step pointer stays on a line (R21) -/

/-- The step pointer of each of the frames is on a line of its expansion. -/
def FramesInRange (fs : List Frame) : Prop := ∀ f ∈ fs, f.upc < lineCount f.req

/-- The frame on top may have passed its last line: it is then dropped, and so is every caller that ends with it. -/
theorem unwind_inRange {fs : List Frame} (returned : Bool) (h : FramesInRange fs.tail) :
    FramesInRange (unwind returned fs).2 := by
  induction fs generalizing returned with
  | nil => exact h
  | cons f rest ih =>
    have below : FramesInRange rest := h
    unfold unwind
    extract_lets g
    split
    · exact List.forall_mem_cons.2 ⟨‹_›, below⟩
    · split
      · exact ih true fun g hg => below g (List.mem_of_mem_tail hg)
      · exact below

theorem dropRequest_inRange {fs : List Frame} (h : FramesInRange fs) : FramesInRange (dropRequest fs) := by
  induction fs with
  | nil => exact h
  | cons f rest ih =>
    have below : FramesInRange rest := fun g hg => h g (List.mem_cons_of_mem _ hg)
    unfold dropRequest
    split
    · exact ih below
    · exact below

section
variable {s : State}

theorem goOn_seqInv {f : Frame} {rest : List Frame} (h : FramesInRange rest) : (s.goOn (f :: rest)).SeqInv := by
  have frames : (s.goOn (f :: rest)).frames = (unwind false (f :: rest)).2 := by
    unfold State.goOn; split <;> rename_i e <;> rw [e]
  unfold State.SeqInv
  rw [frames]
  exact unwind_inRange false h

theorem endRequest_seqInv (o : RequestOutcome) (h : s.SeqInv) : (s.endRequest o).SeqInv := dropRequest_inRange h

theorem afterLine_seqInv {f : Frame} {rest : List Frame} (hs : s.SeqInv) (h : FramesInRange rest) :
    (s.afterLine (f :: rest)).SeqInv := by
  unfold State.afterLine
  split
  · exact endRequest_seqInv _ hs
  · exact endRequest_seqInv _ hs
  · exact goOn_seqInv h

theorem pollAgain_seqInv {l : Option Nat} {f : Frame} {rest : List Frame} (hs : s.SeqInv) (h : FramesInRange rest) :
    (pollAgain l f rest s).SeqInv := by
  have round : ({ s with frames := { f with upc := 0, polls := f.polls + 1 } :: rest } : State).SeqInv :=
    List.forall_mem_cons.2 ⟨lineCount_pos f.req, h⟩
  unfold pollAgain
  split
  · split
    · exact endRequest_seqInv _ hs
    · exact round
  · exact round

theorem runLine_seqInv {ln : Line} {f : Frame} {rest : List Frame} {t : State} (hs : s.SeqInv)
    (hf : s.frames = f :: rest) (h : runLine ln f rest s = .next t) : t.SeqInv := by
  have all : FramesInRange (f :: rest) := hf ▸ hs
  have below : FramesInRange rest := fun g hg => all g (List.mem_cons_of_mem _ hg)
  cases ln with
  | txn i | read x i =>
    simp only [runLine] at h
    split at h <;> cases h
    rename_i u e
    have hu : u.SeqInv := by rw [State.SeqInv, (exec_seqSame e).frames]; exact hs
    exact afterLine_seqInv hu below
  | skipIf c n | setSpiInited v | result v => cases h; exact goOn_seqInv below
  | repollIf c =>
    cases h
    cases c
    · exact goOn_seqInv below
    · exact pollAgain_seqInv hs below
  | call r => cases h; exact List.forall_mem_cons.2 ⟨lineCount_pos r, all⟩
  | refuseIf c code =>
    cases h
    cases c
    · exact goOn_seqInv below
    · exact endRequest_seqInv _ hs

theorem syncComplete_frames (s : State) : (syncComplete s).frames = s.frames := by
  unfold syncComplete
  split
  case h_2 => rw [completeReset_eq]
  case h_5 => unfold completeCmd; split <;> rfl
  all_goals rfl

theorem seqStep_seqInv {t : State} (hs : s.SeqInv) (h : seqStep s = .next t) : t.SeqInv := by
  have k := (whileLive_next h).2
  split at k
  · cases k; exact hs
  · rename_i f rest hf
    split at k
    · exact runLine_seqInv hs hf k
    · cases k
      exact goOn_seqInv fun g hg => hs g (by rw [hf]; exact List.mem_cons_of_mem _ hg)

theorem syncStep_seqInv {t : State} (hs : s.SeqInv) (h : syncStep s = .next t) : t.SeqInv := by
  cases (whileLive_next h).2
  rw [State.SeqInv, syncComplete_frames]
  exact hs

theorem runTurn_seqInv {u : Turn} {t : State} (hs : s.SeqInv) (h : runTurn u s = .next t) : t.SeqInv := by
  cases u with
  | host w =>
    simp only [runTurn, hostStep] at h
    split at h
    · rw [State.SeqInv, (exec_seqSame h).frames]; exact hs
    · cases (whileLive_next h).2; exact hs
  | sync => exact syncStep_seqInv hs h
  | request r => cases (whileLive_next h).2; exact List.forall_mem_cons.2 ⟨lineCount_pos r, hs⟩
  | seq => exact seqStep_seqInv hs h

end

/-- Settles O40: whichever agent steps, the frames it leaves are unwound. -/
theorem stepKeepsStepPointersInRange : Obligations.StepKeepsStepPointersInRange := by
  intro s t hs h
  unfold step takeTurn at h
  split at h
  · rename_i u us _
    exact runTurn_seqInv (s := { s with schedule := us }) hs h
  · unfold freeTurn at h
    split at h
    · exact syncStep_seqInv hs h
    · split_ifs at h
      · exact syncStep_seqInv (s := s.picked) hs h
      · exact seqStep_seqInv (s := s.picked) hs h
    · exact seqStep_seqInv hs h
    · cases (whileLive_next h).2; exact hs

/-! The lines of the two waits (R121, R122, R138) -/

/-- A read whose line is not the last one binds its local and goes on with the next line (R120). -/
theorem seqStep_read {s t : State} {f : Frame} {rest : List Frame} {x : Local} {i : Instr} {w : Word} (h : s.Live)
    (hf : s.frames = f :: rest) (hl : (expansion f.locals s.spiInited f.req)[f.upc]? = some (.read x i))
    (he : exec i s = .next t) (hw : t.rdata = w) (hfault : t.fault = s.fault) (hrefused : t.refused = s.refused)
    (hk : f.upc + 1 < lineCount f.req) :
    seqStep s = .next { t with frames := { f.next with locals := f.locals.bind x w } :: rest } := by
  subst hw
  rw [seqStep_line h hf hl]
  simp only [runLine, he]
  rw [afterLine_clean (hfault.trans h.noFault) (hrefused.trans h.noRefusal)]
  exact congrArg _ (goOn_more hk)

/-- The last line of either wait, by what its reads have bound. -/
theorem wait_lastLine {f : Frame} {busy : Bool} (spiInited : Bool)
    (h : (f.req = .waitSync ∧ f.upc = 1 ∧ busy = f.locals.s.getLsbD 15) ∨
      (f.req = .waitReset ∧ f.upc = 2 ∧ busy = (f.locals.a.getLsbD 0 || f.locals.s.getLsbD 15))) :
    (expansion f.locals spiInited f.req)[f.upc]? = some (.repollIf busy) ∧ lineCount f.req = f.upc + 1 := by
  rcases h with ⟨hr, hk, rfl⟩ | ⟨hr, hk, rfl⟩ <;> rw [hr, hk] <;> exact ⟨rfl, rfl⟩

theorem seqStep_pollAgain {s : State} {f : Frame} {rest : List Frame} (h : s.Live) (hf : s.frames = f :: rest)
    (hl : (expansion f.locals s.spiInited f.req)[f.upc]? = some (.repollIf true)) :
    seqStep s = .next (pollAgain Config.waitLimit f rest s) := seqStep_line h hf hl

theorem seqStep_pollDone {s : State} {f : Frame} {rest : List Frame} (h : s.Live) (hf : s.frames = f :: rest)
    (hl : (expansion f.locals s.spiInited f.req)[f.upc]? = some (.repollIf false)) :
    seqStep s = .next (s.goOn (f.next :: rest)) := seqStep_line h hf hl

/-- An expansion that ends takes along every caller that has no line left, up to the first that has one or was handed
over (R120). -/
theorem goOn_callers {s : State} {g : Frame} {below : List Frame} (done : List Frame) {f : Frame}
    (hk : lineCount f.req ≤ f.upc) (hn : f.nested = true)
    (hdone : ∀ h ∈ done, h.nested = true ∧ lineCount h.req ≤ h.upc + 1) :
    s.goOn (f :: (done ++ g :: below)) = s.goOn (g.next :: below) := by
  induction done generalizing f with
  | nil => exact goOn_returns hk hn
  | cons d done ih =>
    obtain ⟨⟨hdn, hdk⟩, hdone⟩ := List.forall_mem_cons.1 hdone
    exact (goOn_returns hk hn).trans (ih (f := d.next) hdk hdn hdone)

/-- Settles O45: line by line, a read that binds its local, and the poll by what the bits were. -/
theorem waitsPollUntilClear : Obligations.WaitsPollUntilClear := by
  intro s f rest h hf
  have status : (s.answer (statusWord s.syncBusy (Config.engStatus s.handle s.draws))).drawn.rdata =
      statusWord s.syncBusy (Config.engStatus s.handle s.draws) := State.answer_rdata s _
  have bit15 : (statusWord s.syncBusy (Config.engStatus s.handle s.draws)).getLsbD 15 = true ↔ s.syncOp ≠ .none := by
    rw [statusWord_bit15, syncBusy_iff]
  refine ⟨fun hr hk => ?_, fun hr hk => ?_, fun hr hk => ?_,
    fun busy hb => ⟨fun hbusy => ?_, fun hbusy hn => ?_, fun done g below hbusy hn hrest hdone => ?_⟩⟩
  · obtain ⟨req, nested, upc, locals, polls, value⟩ := f
    cases hr; cases hk
    exact ⟨_, s.draws + 1, bit15, seqStep_read h hf rfl (exec_rdStatus_live h) status rfl rfl (show 1 < 2 by decide)⟩
  · obtain ⟨req, nested, upc, locals, polls, value⟩ := f
    cases hr; cases hk
    exact ⟨_, wSwrst_ctrlaWord s.ctrla,
      seqStep_read h hf rfl (exec_rdCtrla_live h) (State.answer_rdata s _) rfl rfl (show 1 < 3 by decide)⟩
  · obtain ⟨req, nested, upc, locals, polls, value⟩ := f
    cases hr; cases hk
    exact ⟨_, s.draws + 1, bit15, seqStep_read h hf rfl (exec_rdStatus_live h) status rfl rfl (show 2 < 3 by decide)⟩
  all_goals
    obtain ⟨line, last⟩ := wait_lastLine s.spiInited hb
    rw [hbusy] at line
  · rw [seqStep_pollAgain h hf line]
    cases Config.waitLimit with
    | none => rfl
    | some n =>
      dsimp only [pollAgain]
      split
      · rw [State.endRequest, hf]
      · rfl
  · rw [seqStep_pollDone h hf line]
    exact congrArg _ (goOn_ends last.le hn)
  · rw [seqStep_pollDone h hf line, hrest, goOn_callers (f := f.next) done last.le hn hdone]
    exact ⟨fun hk => congrArg _ (goOn_more hk), fun hk hg => congrArg _ (goOn_ends hk hg)⟩

/-- Settles O46: the poll of a wait under the request that called it, by the limit. -/
theorem waitTimesOutAtItsLimit : Obligations.WaitTimesOutAtItsLimit := by
  intro s called f g below h hs hhead hcalled hg hw
  obtain ⟨rest, hf⟩ : ∃ rest, s.frames = f :: rest := List.head?_eq_some_iff.1 hhead
  obtain ⟨line, -⟩ := wait_lastLine (f := f) (busy := true) s.spiInited (by
    simpa only [Bool.true_eq, Bool.or_eq_true, eq_comm (a := true)] using hw)
  rw [seqStep_pollAgain h hf line, hf, List.tail_cons]
  cases Config.waitLimit with
  | none => rfl
  | some n =>
    dsimp only [pollAgain]
    split
    · refine ⟨_, rfl, by rw [State.endRequest, hs, dropRequest_called hcalled hg], fun hp i hc => ?_⟩
      exact exec_controlWrite_pending ⟨h.clk, h.noFault, h.noRefusal⟩ hp hc
    · rfl

/-- Settles O56: such a transaction sets its mark alone, and the request ends with it. -/
theorem faultEndsTheRequest : Obligations.FaultEndsTheRequest := by
  intro s u f rest i h hf hl he
  have ends (o : RequestOutcome) : u.endRequest o = { u with frames := dropRequest (f :: rest), outcome := some o } := by
    rw [State.endRequest, (exec_seqSame he).frames, hf]
  have run : seqStep s = .next (u.afterLine (f.next :: rest)) := by
    rw [seqStep_line h hf hl]; simp only [runLine, he]
  have voids := faultOrRefusalVoidsTheStep i s u he
  refine ⟨fun c hc => ?_, fun c hc hx => ?_⟩
  · have after : u.afterLine (f.next :: rest) = u.endRequest (.fault c) := by simp only [State.afterLine, hc]
    rw [run, after, ends]
    rcases voids (by simp [State.marked, hc]) with ⟨rfl, -⟩ | ⟨rfl, -⟩
    · cases hc; rfl
    · exact absurd (h.noFault.symm.trans hc) nofun
  · have after : u.afterLine (f.next :: rest) = u.endRequest (.refused c) := by simp only [State.afterLine, hc, hx]
    rw [run, after, ends]
    rcases voids (by simp [State.marked, hx]) with ⟨rfl, -⟩ | ⟨rfl, -⟩
    · exact absurd (h.noRefusal.symm.trans hx) nofun
    · cases hx; rfl

end Sys2Proof.Machine
end

section
/-! Runs of requests (R120). `Expands r k l turns` says what the lines of request `r`, from line `k` with locals `l`, do to
the block over the given turns, whoever called the request; a line in front, a call in between and a turn of SYNC each
extend it. The read results and the draws are left open but for their number, and the rest of the schedule is not read. -/

namespace Sys2Proof.Machine

/-! Runs that leave the rest of the schedule alone -/

/-- The state with the given schedule, read results and count of draws. -/
def State.placed (us : List Turn) (rs : List Word) (n : Nat) (s : State) : State :=
  { s with schedule := us, reads := rs, draws := n }

/-- The state with the given expansions in progress. -/
def State.framed (fs : List Frame) (s : State) : State := { s with frames := fs }

/-- The given turns lead from `s` to `t`, with `reads` words read and `draws` engine inputs drawn, whatever was read and
drawn before and whatever turns come after. -/
def Runs (turns : List Turn) (reads draws : Nat) (s t : State) : Prop :=
  ∀ us rs n, ∃ ws : List Word, ws.length = reads ∧
    Host.Core.run core turns.length (s.placed (turns ++ us) rs n) = .next (t.placed us (rs ++ ws) (n + draws))

/-- One turn leads from `s` to `t`. -/
def RunsTurn (u : Turn) (reads draws : Nat) (s t : State) : Prop :=
  ∀ us rs n, ∃ ws : List Word, ws.length = reads ∧
    runTurn u (s.placed us rs n) = .next (t.placed us (rs ++ ws) (n + draws))

section
variable {s t v : State} {u : Turn} {turns turns₁ turns₂ : List Turn} {m m₁ m₂ d d₁ d₂ : Nat}

theorem Runs.nil (s : State) : Runs [] 0 0 s s := fun _ rs _ => ⟨[], rfl, by rw [List.append_nil]; rfl⟩

theorem Runs.trans (h₁ : Runs turns₁ m₁ d₁ s t) (h₂ : Runs turns₂ m₂ d₂ t v) :
    Runs (turns₁ ++ turns₂) (m₂ + m₁) (d₂ + d₁) s v := by
  intro us rs n
  obtain ⟨ws₁, hw₁, e₁⟩ := h₁ (turns₂ ++ us) rs n
  obtain ⟨ws₂, hw₂, e₂⟩ := h₂ us (rs ++ ws₁) (n + d₁)
  refine ⟨ws₁ ++ ws₂, by rw [List.length_append, hw₁, hw₂, Nat.add_comm], ?_⟩
  rw [List.append_assoc, List.length_append, run_add e₁, e₂, List.append_assoc, Nat.add_assoc, Nat.add_comm d₁]

theorem RunsTurn.runs (h : RunsTurn u m d s t) : Runs [u] m d s t := by
  intro us rs n
  obtain ⟨ws, hw, e⟩ := h us rs n
  exact ⟨ws, hw, run_step ((step_turn rfl).trans e)⟩

theorem RunsTurn.then (h : RunsTurn u m₁ d₁ s t) (k : Runs turns m₂ d₂ t v) :
    Runs (u :: turns) (m₂ + m₁) (d₂ + d₁) s v :=
  h.runs.trans k

theorem State.Live.framed (h : s.Live) (fs : List Frame) : (s.framed fs).Live := ⟨h.clk, h.noFault, h.noRefusal⟩

theorem State.Live.placed (h : s.Live) (us : List Turn) (rs : List Word) (n : Nat) : (s.placed us rs n).Live :=
  ⟨h.clk, h.noFault, h.noRefusal⟩

/-- A run from a state that holds just these turns. -/
theorem Runs.whole (h : Runs turns m d s t) (hs : s.schedule = turns) : ∃ ws : List Word, ws.length = m ∧
    Host.Core.run core turns.length s = .next (t.placed [] (s.reads ++ ws) (s.draws + d)) := by
  have runs := h [] s.reads s.draws
  rw [List.append_nil, ← hs] at runs
  exact hs ▸ runs

/-! A turn that is neither a read nor a write of the block -/

theorem RunsTurn.silent (h : ∀ us rs n, runTurn u (s.placed us rs n) = .next (t.placed us rs n)) : RunsTurn u 0 0 s t :=
  fun us rs n => ⟨[], rfl, by rw [List.append_nil]; exact h us rs n⟩

theorem runsTurn_request (h : s.Live) (r : Request) :
    RunsTurn (.request r) 0 0 s (s.framed ({ req := r } :: s.frames)) :=
  .silent fun us rs n => whileLive_live (h.placed us rs n) _

/-- A completion reads and changes nothing of the sequencer, the schedule, the read results and the draws. -/
theorem syncComplete_framed (fs : List Frame) (us : List Turn) (rs : List Word) (n : Nat) :
    syncComplete ((s.framed fs).placed us rs n) =
      ((syncComplete s).framed fs).placed us rs n := by
  have pending : ((s.framed fs).placed us rs n).syncOp = s.syncOp := rfl
  unfold syncComplete
  rw [pending]
  split
  case h_2 => rw [completeReset_eq, completeReset_eq]; rfl
  case h_5 =>
    have latched : ((s.framed fs).placed us rs n).cmdPending = s.cmdPending := rfl
    unfold completeCmd
    rw [latched]
    split <;> rfl
  all_goals rfl

theorem runsTurn_sync (h : s.Live) (fs : List Frame) :
    RunsTurn .sync 0 0 (s.framed fs) ((syncComplete s).framed fs) :=
  .silent fun us rs n =>
    (whileLive_live ((h.framed fs).placed us rs n) _).trans (congrArg _ (syncComplete_framed fs us rs n))

theorem syncComplete_live (h : s.Live) : (syncComplete s).Live := by
  have marks : (syncComplete s).fault = s.fault ∧ (syncComplete s).refused = s.refused := by
    unfold syncComplete
    split
    case h_2 => rw [completeReset_eq]; exact ⟨rfl, rfl⟩
    case h_5 => unfold completeCmd; split <;> exact ⟨rfl, rfl⟩
    all_goals exact ⟨rfl, rfl⟩
  exact ⟨(syncComplete_runSame s).clkReady.trans h.clk, marks.1.trans h.noFault, marks.2.trans h.noRefusal⟩

/-! A turn of SEQ, by the line it runs (R120) -/

theorem afterLine_live (h : s.Live) (fs : List Frame) : s.afterLine fs = s.goOn fs :=
  afterLine_clean h.noFault h.noRefusal

theorem State.Live.answer (h : s.Live) (w : Word) : (s.answer w).Live := ⟨h.clk, h.noFault, h.noRefusal⟩

theorem State.Live.drawn (h : s.Live) : s.drawn.Live := ⟨h.clk, h.noFault, h.noRefusal⟩

variable {f : Frame} {rest : List Frame}

/-- A turn of SEQ runs the line at the step pointer of the expansion on top (R120). -/
theorem runTurn_seq {ln : Line} (h : s.Live) (hl : (expansion f.locals s.spiInited f.req)[f.upc]? = some ln)
    (us : List Turn) (rs : List Word) (n : Nat) : runTurn .seq ((s.framed (f :: rest)).placed us rs n) =
      runLine ln f rest ((s.framed (f :: rest)).placed us rs n) :=
  seqStep_line ((h.framed _).placed us rs n) rfl hl

/-- A line that is no transaction. -/
theorem runsTurn_line {ln : Line} (h : s.Live) (hl : (expansion f.locals s.spiInited f.req)[f.upc]? = some ln)
    (hr : ∀ us rs n, runLine ln f rest ((s.framed (f :: rest)).placed us rs n) = .next (t.placed us rs n)) :
    RunsTurn .seq 0 0 (s.framed (f :: rest)) t :=
  .silent fun us rs n => (runTurn_seq h hl us rs n).trans (hr us rs n)

theorem goOn_framed (fs gs : List Frame) (us : List Turn) (rs : List Word) (n : Nat) :
    ((s.framed gs).placed us rs n).goOn fs = (s.goOn fs).placed us rs n := by
  unfold State.goOn
  split <;> rfl

/-- A control write whose body leaves the marks alone. -/
theorem runsTurn_write {i : Instr} (h : s.Live) (hl : (expansion f.locals s.spiInited f.req)[f.upc]? = some (.txn i))
    (hc : isControlWrite i = true) (he : exec i s = .next t) (ht : t.Live) :
    RunsTurn .seq 0 0 (s.framed (f :: rest)) (t.goOn (f.next :: rest)) := by
  refine runsTurn_line h hl fun us rs n => ?_
  have written : exec i ((s.framed (f :: rest)).placed us rs n) = .next ((t.framed (f :: rest)).placed us rs n) := by
    have e := exec_controlWrite_elsewhere rs s.hist n (f :: rest) us hc he
    rw [exec_controlWrite_keeps hc he]
    exact e
  simp only [runLine, written]
  rw [afterLine_live ((ht.framed _).placed us rs n), goOn_framed]

/-- A read whose word does not depend on what was read or drawn. -/
theorem runsTurn_read {x : Local} {i : Instr} {w : Word} (h : s.Live)
    (hl : (expansion f.locals s.spiInited f.req)[f.upc]? = some (.read x i))
    (he : ∀ us rs n, exec i ((s.framed (f :: rest)).placed us rs n) =
      .next (((s.framed (f :: rest)).placed us rs n).answer w)) :
    RunsTurn .seq 1 0 (s.framed (f :: rest))
      (s.goOn ({ f.next with locals := f.locals.bind x w } :: rest)) := by
  intro us rs n
  refine ⟨[w], rfl, (runTurn_seq h hl us rs n).trans ?_⟩
  simp only [runLine, he us rs n, State.answer_rdata]
  rw [afterLine_live (((h.framed _).placed us rs n).answer w)]
  exact congrArg _ (goOn_framed _ _ us (rs ++ [w]) n)

/-- A read of STATUS draws its low bits; what follows may depend on them. -/
theorem runs_readStatus {x : Local} (h : s.Live)
    (hl : (expansion f.locals s.spiInited f.req)[f.upc]? = some (.read x .rdStatus))
    (k : ∀ e, Runs turns m d
      (s.goOn ({ f.next with locals := f.locals.bind x (statusWord s.syncBusy e) } :: rest)) t) :
    Runs (.seq :: turns) (m + 1) (d + 1) (s.framed (f :: rest)) t := by
  intro us rs n
  obtain ⟨ws, hw, e⟩ := k (Config.engStatus s.handle n) us
    (rs ++ [statusWord s.syncBusy (Config.engStatus s.handle n)]) (n + 1)
  have live : ((s.framed (f :: rest)).placed (turns ++ us) rs n).Live := (h.framed _).placed _ _ _
  have first : runTurn .seq ((s.framed (f :: rest)).placed (turns ++ us) rs n) =
      .next ((s.goOn ({ f.next with
        locals := f.locals.bind x (statusWord s.syncBusy (Config.engStatus s.handle n)) } :: rest)).placed (turns ++ us)
          (rs ++ [statusWord s.syncBusy (Config.engStatus s.handle n)]) (n + 1)) := by
    rw [runTurn_seq h hl]
    simp only [runLine, exec_rdStatus_live live, State.drawn_rdata, State.answer_rdata]
    rw [afterLine_live (live.answer _).drawn]
    exact congrArg _ (goOn_framed (s := s) _ (f :: rest) (turns ++ us)
      (rs ++ [statusWord s.syncBusy (Config.engStatus s.handle n)]) (n + 1))
  refine ⟨statusWord s.syncBusy (Config.engStatus s.handle n) :: ws, by rw [List.length_cons, hw], ?_⟩
  refine (run_step ((step_turn rfl).trans first)).trans (e.trans ?_)
  rw [List.append_assoc, List.singleton_append, Nat.add_assoc, Nat.add_comm 1]

end

/-! What an expansion does to the block, whoever called it -/

/-- An expansion has run its last line: handed over, its request ends with `OK`; called, its caller goes on (R120). -/
def State.endExpansion (nested : Bool) (callers : List Frame) (s : State) : State :=
  match nested, callers with
  | false, _ => { s with frames := callers, outcome := some (.ok none) }
  | true, [] => { s with frames := [] }
  | true, g :: rest => s.goOn (g.next :: rest)

theorem goOn_done {s : State} {f : Frame} {callers : List Frame} (hk : lineCount f.req ≤ f.upc)
    (hv : f.value = none) : s.goOn (f :: callers) = s.endExpansion f.nested callers := by
  cases hn : f.nested with
  | false => rw [goOn_ends hk hn, hv]; rfl
  | true =>
    cases callers with
    | nil => simp [State.goOn, unwind, Nat.not_lt.2 hk, hn, State.endExpansion]
    | cons g rest => exact goOn_returns hk hn

/-- From line `k` with locals `l`, the lines of request `r` lead the block of `s` to that of `t` over the given turns,
with `m` words read and `d` engine inputs drawn, and no mark is set; the expansion is over then. -/
def Expands (r : Request) (k : Nat) (l : Locals) (turns : List Turn) (m d : Nat) (s t : State) : Prop :=
  s.Live → t.Live ∧ ∀ nested callers,
    Runs turns m d (s.goOn ({ req := r, nested := nested, upc := k, locals := l } :: callers))
      (t.endExpansion nested callers)

namespace Expands

variable {r r' : Request} {k : Nat} {l : Locals} {turns turns₁ turns₂ : List Turn} {m m₁ m₂ d d₁ d₂ : Nat}
  {s t u : State}

/-- No line is left. -/
theorem done (hk : lineCount r ≤ k) (e : s = t) : Expands r k l [] 0 0 s t := fun h =>
  ⟨e ▸ h, fun nested callers => by rw [goOn_done hk rfl, e]; exact .nil _⟩

/-- The turns and the state it ends in, written in another way. -/
theorem cast (h : Expands r k l turns₁ m d s t) (ht : turns₁ = turns₂) (hu : t = u) : Expands r k l turns₂ m d s u :=
  ht ▸ hu ▸ h

/-- A line in front, whoever called the expansion. -/
theorem of_line {ln : Line} {l' : Locals} {k' : Nat} (hl : (expansion l s.spiInited r)[k]? = some ln)
    (hu : s.Live → u.Live)
    (line : s.Live → ∀ f rest, (expansion f.locals s.spiInited f.req)[f.upc]? = some ln → f.upc = k → f.locals = l →
      RunsTurn .seq m₁ d₁ (s.framed (f :: rest)) (u.goOn ({ f with upc := k', locals := l' } :: rest)))
    (next : Expands r k' l' turns m d u t) : Expands r k l (.seq :: turns) (m + m₁) (d + d₁) s t := by
  intro h
  obtain ⟨ht, runs⟩ := next (hu h)
  refine ⟨ht, fun nested callers => ?_⟩
  rw [goOn_more (line_inRange hl)]
  exact (line h _ callers hl rfl rfl).then (runs nested callers)

theorem sync (hk : k < lineCount r) (next : Expands r k l turns m d (syncComplete s) t) :
    Expands r k l (.sync :: turns) m d s t := by
  intro h
  obtain ⟨ht, runs⟩ := next (syncComplete_live h)
  refine ⟨ht, fun nested callers => ?_⟩
  have after := runs nested callers
  rw [goOn_more hk] at after ⊢
  exact (runsTurn_sync h _).then after

/-- A call: the called expansion runs, then the caller's next line. -/
theorem call (hl : (expansion l s.spiInited r)[k]? = some (.call r')) (inner : Expands r' 0 {} turns₁ m₁ d₁ s u)
    (next : Expands r (k + 1) l turns₂ m₂ d₂ u t) :
    Expands r k l (.seq :: (turns₁ ++ turns₂)) (m₂ + m₁) (d₂ + d₁) s t := by
  intro h
  obtain ⟨hu, runs₁⟩ := inner h
  obtain ⟨ht, runs₂⟩ := next hu
  refine ⟨ht, fun nested callers => ?_⟩
  have called := runs₁ true ({ req := r, nested := nested, upc := k, locals := l } :: callers)
  rw [goOn_more (lineCount_pos r')] at called
  rw [goOn_more (line_inRange hl)]
  exact (runsTurn_line (ln := .call r') h hl fun _ _ _ => rfl).then (called.trans (runs₂ nested callers))

theorem readStatus {x : Local} (hl : (expansion l s.spiInited r)[k]? = some (.read x .rdStatus))
    (next : ∀ e, Expands r (k + 1) (l.bind x (statusWord s.syncBusy e)) turns m d s t) :
    Expands r k l (.seq :: turns) (m + 1) (d + 1) s t := by
  intro h
  refine ⟨(next 0#15 h).1, fun nested callers => ?_⟩
  rw [goOn_more (line_inRange hl)]
  exact runs_readStatus h hl fun e => (next e h).2 nested callers

theorem readCtrla {x : Local} (hl : (expansion l s.spiInited r)[k]? = some (.read x .rdCtrla))
    (next : Expands r (k + 1) (l.bind x (ctrlaWord s.ctrla)) turns m d s t) :
    Expands r k l (.seq :: turns) (m + 1) d s t :=
  of_line (d₁ := 0) hl id (fun h f rest line hk he => by
    subst hk he
    exact runsTurn_read h line fun us rs n => exec_rdCtrla_live ((h.framed _).placed us rs n)) next

theorem readCtrlb {x : Local} (hl : (expansion l s.spiInited r)[k]? = some (.read x .rdCtrlb))
    (next : Expands r (k + 1) (l.bind x (ctrlbWord s.ctrlb)) turns m d s t) :
    Expands r k l (.seq :: turns) (m + 1) d s t :=
  of_line (d₁ := 0) hl id (fun h f rest line hk he => by
    subst hk he
    exact runsTurn_read h line fun us rs n => exec_rdCtrlb_live ((h.framed _).placed us rs n)) next

theorem write {i : Instr} (hl : (expansion l s.spiInited r)[k]? = some (.txn i)) (hc : isControlWrite i = true)
    (he : s.Live → exec i s = .next u) (hf : u.fault = s.fault) (hx : u.refused = s.refused)
    (next : Expands r (k + 1) l turns m d u t) : Expands r k l (.seq :: turns) m d s t := by
  have hu (h : s.Live) : u.Live :=
    ⟨(exec_seqSame (he h)).clkReady.trans h.clk, hf.trans h.noFault, hx.trans h.noRefusal⟩
  exact of_line (m₁ := 0) (d₁ := 0) hl hu (fun h f rest line hk hloc => by
    subst hk hloc
    exact runsTurn_write h line hc (he h) (hu h)) next

theorem skipped {c : Bool} {target : Nat} (hl : (expansion l s.spiInited r)[k]? = some (.skipIf c target))
    (hc : c = true) (next : Expands r target l turns m d s t) : Expands r k l (.seq :: turns) m d s t :=
  of_line (m₁ := 0) (d₁ := 0) hl id (fun h f rest line hk hloc => by
    subst hk hloc hc
    exact runsTurn_line h line fun us rs n => congrArg _ (goOn_framed _ _ us rs n)) next

theorem notSkipped {c : Bool} {target : Nat} (hl : (expansion l s.spiInited r)[k]? = some (.skipIf c target))
    (hc : c = false) (next : Expands r (k + 1) l turns m d s t) : Expands r k l (.seq :: turns) m d s t :=
  of_line (m₁ := 0) (d₁ := 0) hl id (fun h f rest line hk hloc => by
    subst hk hloc hc
    exact runsTurn_line h line fun us rs n => congrArg _ (goOn_framed _ _ us rs n)) next

theorem polled {c : Bool} (hl : (expansion l s.spiInited r)[k]? = some (.repollIf c)) (hc : c = false)
    (next : Expands r (k + 1) l turns m d s t) : Expands r k l (.seq :: turns) m d s t :=
  of_line (m₁ := 0) (d₁ := 0) hl id (fun h f rest line hk hloc => by
    subst hk hloc hc
    exact runsTurn_line h line fun us rs n => congrArg _ (goOn_framed _ _ us rs n)) next

theorem accepted {c : Bool} {code : RefusedCode} (hl : (expansion l s.spiInited r)[k]? = some (.refuseIf c code))
    (hc : c = false) (next : Expands r (k + 1) l turns m d s t) : Expands r k l (.seq :: turns) m d s t :=
  of_line (m₁ := 0) (d₁ := 0) hl id (fun h f rest line hk hloc => by
    subst hk hloc hc
    exact runsTurn_line h line fun us rs n => congrArg _ (goOn_framed _ _ us rs n)) next

theorem latch {v : Bool} (hl : (expansion l s.spiInited r)[k]? = some (.setSpiInited v))
    (next : Expands r (k + 1) l turns m d { s with spiInited := v } t) : Expands r k l (.seq :: turns) m d s t :=
  of_line (u := { s with spiInited := v }) (m₁ := 0) (d₁ := 0) hl (fun h => ⟨h.clk, h.noFault, h.noRefusal⟩)
    (fun h f rest line hk hloc => by
      subst hk hloc
      exact runsTurn_line h line fun us rs n =>
        congrArg _ (goOn_framed (s := { s with spiInited := v }) _ _ us rs n)) next

/-- A request handed to the sequencer runs its expansion to the end and ends with `OK`; what was in progress below it
waits (R120, R180). -/
theorem run (hr : Expands r 0 {} turns m d s t) (h : s.Live) (hs : s.schedule = .request r :: turns) :
    ∃ ws : List Word, ws.length = m ∧ Host.Core.run core s.schedule.length s = .next { t with
      frames := s.frames, outcome := some (.ok none), schedule := [], reads := s.reads ++ ws
      draws := s.draws + d } := by
  have lines := (hr h).2 false s.frames
  rw [goOn_more (lineCount_pos r)] at lines
  exact hs ▸ ((runsTurn_request h r).then lines).whole hs

end Expands

end Sys2Proof.Machine
end

section
/-! The words the requests write (R123 to R142): each is cut out of a register image by a mask, or put together from
fields, so the register value it holds follows field by field. -/

namespace Sys2Proof.Machine

/-! Masks act on the fields one by one -/

def CtrlA.and (a b : CtrlA) : CtrlA where
  swrst := a.swrst && b.swrst
  enable := a.enable && b.enable
  mode := a.mode &&& b.mode
  sampr := a.sampr &&& b.sampr
  pads := a.pads &&& b.pads
  form := a.form &&& b.form
  cpha := a.cpha && b.cpha
  cpol := a.cpol && b.cpol
  dord := a.dord && b.dord

def CtrlA.or (a b : CtrlA) : CtrlA where
  swrst := a.swrst || b.swrst
  enable := a.enable || b.enable
  mode := a.mode ||| b.mode
  sampr := a.sampr ||| b.sampr
  pads := a.pads ||| b.pads
  form := a.form ||| b.form
  cpha := a.cpha || b.cpha
  cpol := a.cpol || b.cpol
  dord := a.dord || b.dord

/-- Every bit of CTRLA that is stored. -/
def CtrlA.ones : CtrlA :=
  ⟨true, true, .allOnes 3, .allOnes 3, .allOnes 6, .allOnes 4, true, true, true⟩

def CtrlB.and (a b : CtrlB) : CtrlB where
  chsize := a.chsize &&& b.chsize
  sbmode := a.sbmode && b.sbmode
  pmode := a.pmode && b.pmode
  ackact := a.ackact && b.ackact

def CtrlB.or (a b : CtrlB) : CtrlB where
  chsize := a.chsize ||| b.chsize
  sbmode := a.sbmode || b.sbmode
  pmode := a.pmode || b.pmode
  ackact := a.ackact || b.ackact

/-- Every bit of CTRLB that is stored. -/
def CtrlB.ones : CtrlB := ⟨.allOnes 3, true, true, true⟩

theorem ctrlaOf_and (a b : Word) : ctrlaOf (a &&& b) = (ctrlaOf a).and (ctrlaOf b) := by
  simp only [ctrlaOf, CtrlA.and, wSwrst, wEnable, wMode, wSampr, wPads, wForm, wCpha, wCpol, wDord,
    BitVec.getLsbD_and, BitVec.extractLsb'_and]

theorem ctrlaOf_or (a b : Word) : ctrlaOf (a ||| b) = (ctrlaOf a).or (ctrlaOf b) := by
  simp only [ctrlaOf, CtrlA.or, wSwrst, wEnable, wMode, wSampr, wPads, wForm, wCpha, wCpol, wDord,
    BitVec.getLsbD_or, BitVec.extractLsb'_or]

theorem ctrlbOf_and (a b : Word) : ctrlbOf (a &&& b) = (ctrlbOf a).and (ctrlbOf b) := by
  simp only [ctrlbOf, CtrlB.and, wChsize, wSbmode, wPmode, wAckact, BitVec.getLsbD_and, BitVec.extractLsb'_and]

theorem ctrlbOf_or (a b : Word) : ctrlbOf (a ||| b) = (ctrlbOf a).or (ctrlbOf b) := by
  simp only [ctrlbOf, CtrlB.or, wChsize, wSbmode, wPmode, wAckact, BitVec.getLsbD_or, BitVec.extractLsb'_or]

/-! Words made of the image of CTRLA read before -/

section
variable (c : CtrlA)

theorem ctrlaOf_disableWord :
    ctrlaOf (ctrlaWord c &&& 0xFFFFFFFC#32) = { c with swrst := false, enable := false } := by
  have mask : ctrlaOf 0xFFFFFFFC#32 = { CtrlA.ones with swrst := false, enable := false } := by decide
  rw [ctrlaOf_and, ctrlaOf_ctrlaWord, mask]
  simp [CtrlA.and, CtrlA.ones, -BitVec.reduceAllOnes]

theorem ctrlaOf_enableWord :
    ctrlaOf ((ctrlaWord c ||| 0x00000002#32) &&& 0xFFFFFFFE#32) = { c with swrst := false, enable := true } := by
  have bit : ctrlaOf 0x00000002#32 = { enable := true } := by decide
  have mask : ctrlaOf 0xFFFFFFFE#32 = { CtrlA.ones with swrst := false } := by decide
  rw [ctrlaOf_and, ctrlaOf_or, ctrlaOf_ctrlaWord, bit, mask]
  simp [CtrlA.and, CtrlA.or, CtrlA.ones, -BitVec.reduceAllOnes]

theorem ctrlaOf_dordWord (v : Bool) : ctrlaOf ((ctrlaWord c &&& 0xBFFFFFFC#32) ||| flagAt v 30) =
    { c with swrst := false, enable := false, dord := v } := by
  have mask : ctrlaOf 0xBFFFFFFC#32 = { CtrlA.ones with swrst := false, enable := false, dord := false } := by decide
  have bit : ctrlaOf (flagAt v 30) = { dord := v } := by cases v <;> decide
  rw [ctrlaOf_or, ctrlaOf_and, ctrlaOf_ctrlaWord, bit, mask]
  simp [CtrlA.and, CtrlA.or, CtrlA.ones, -BitVec.reduceAllOnes]

theorem ctrlaOf_clkmodeWord (cpol cpha : Bool) :
    ctrlaOf ((ctrlaWord c &&& 0xCFFFFFFC#32) ||| flagAt cpha 28 ||| flagAt cpol 29) =
      { c with swrst := false, enable := false, cpha := cpha, cpol := cpol } := by
  have mask : ctrlaOf 0xCFFFFFFC#32 =
      { CtrlA.ones with swrst := false, enable := false, cpha := false, cpol := false } := by decide
  have phase : ctrlaOf (flagAt cpha 28) = { cpha := cpha } := by cases cpha <;> decide
  have polarity : ctrlaOf (flagAt cpol 29) = { cpol := cpol } := by cases cpol <;> decide
  rw [ctrlaOf_or, ctrlaOf_or, ctrlaOf_and, ctrlaOf_ctrlaWord, phase, polarity, mask]
  simp [CtrlA.and, CtrlA.or, CtrlA.ones, -BitVec.reduceAllOnes]

end

/-! Words made of the image of CTRLB read before -/

section
variable (c : CtrlB)

theorem ctrlbOf_ackWord : ctrlbOf (ctrlbWord c &&& 0xFFF8FFFF#32) = { c with ackact := false } := by
  have mask : ctrlbOf 0xFFF8FFFF#32 = { CtrlB.ones with ackact := false } := by decide
  rw [ctrlbOf_and, ctrlbOf_ctrlbWord, mask]
  simp [CtrlB.and, CtrlB.ones, -BitVec.reduceAllOnes]

theorem ctrlbOf_nackWord :
    ctrlbOf ((ctrlbWord c &&& 0xFFF8FFFF#32) ||| 0x00040000#32) = { c with ackact := true } := by
  have bit : ctrlbOf 0x00040000#32 = { ackact := true } := by decide
  rw [ctrlbOf_or, ctrlbOf_ackWord, bit]
  simp [CtrlB.or]

theorem ctrlbOf_cmdWord (code : BitVec 2) : ctrlbOf ((ctrlbWord c &&& 0xFFFCFFFF#32) ||| fieldAt code 16) = c := by
  have mask : ctrlbOf 0xFFFCFFFF#32 = CtrlB.ones := by decide
  have field : ∀ code : BitVec 2, ctrlbOf (fieldAt code 16) = {} := by decide
  rw [ctrlbOf_or, ctrlbOf_and, ctrlbOf_ctrlbWord, mask, field]
  simp [CtrlB.and, CtrlB.or, CtrlB.ones, -BitVec.reduceAllOnes]

/-- A word whose command bits a mask has cleared carries no command. -/
theorem wCmd_and (d mask : Word) (h : wCmd mask = 0#2) : wCmd (d &&& mask) = 0#2 := by
  rw [wCmd, BitVec.extractLsb'_and, show mask.extractLsb' 16 2 = 0#2 from h, BitVec.and_zero]

theorem wCmd_or (a b : Word) : wCmd (a ||| b) = wCmd a ||| wCmd b := BitVec.extractLsb'_or

theorem wCmd_cmdWord (code : BitVec 2) : wCmd ((ctrlbWord c &&& 0xFFFCFFFF#32) ||| fieldAt code 16) = code := by
  have field : ∀ code : BitVec 2, wCmd (fieldAt code 16) = code := by decide
  rw [wCmd_or, wCmd_and _ _ (by decide), field, BitVec.zero_or]

end

/-! Words put together from operands -/

theorem flagAt_false (i : Nat) : flagAt false i = 0#32 := rfl

theorem fieldAt_zero (w i : Nat) : fieldAt (0#w) i = 0#32 := by
  simp [fieldAt]

theorem initUartCtrla_eq (sampr : BitVec 3) (pads : BitVec 6) (form : BitVec 4) (dord : Bool) :
    initUartCtrla sampr pads form dord =
      ctrlaWord { mode := 1#3, sampr := sampr, pads := pads, form := form, dord := dord } := by
  have mode : fieldAt 1#3 2 = modeUart := by decide
  simp [initUartCtrla, ctrlaWord, flagAt_false, mode]

theorem initSpiCtrla_eq (st : SpiSettings) : initSpiCtrla st =
    ctrlaWord { mode := 3#3, pads := st.pads, cpha := st.cpha, cpol := st.cpol, dord := st.dord } := by
  have mode : fieldAt 3#3 2 = modeSpi := by decide
  simp [initSpiCtrla, ctrlaWord, flagAt_false, fieldAt_zero, mode]

theorem initUartCtrlb_eq (chsize : BitVec 3) (sbmode pmode : Bool) :
    fieldAt chsize 0 ||| flagAt sbmode 6 ||| flagAt pmode 13 =
      ctrlbWord { chsize := chsize, sbmode := sbmode, pmode := pmode } := by
  simp [ctrlbWord, flagAt_false]

theorem initSpiCtrlb_eq (chsize : BitVec 3) : fieldAt chsize 0 = ctrlbWord { chsize := chsize } := by
  simp [ctrlbWord, flagAt_false]

theorem initI2csAddr_eq (r : AddrReg) : fieldAt r.addr 1 ||| flagAt r.gencen 0 = addrWord r :=
  BitVec.or_comm _ _

end Sys2Proof.Machine
end

section
/-! The requests on the block (R121 to R129): SYNC steps when each wait begins, so a wait polls once and its poll finds
nothing pending. -/

namespace Sys2Proof.Machine

/-! What a completion makes of a block that had nothing pending before the write -/

section
variable {s : State}

theorem completed_disable (hi : s.syncOp = .none) : syncComplete (startDisable s) = { s with
    ctrla := { s.ctrla with enable := false }, enEff := false, hist := s.hist ++ [.release (pers s.ctrla.mode)] } := by
  cases s; cases hi; rfl

theorem completed_enable (hi : s.syncOp = .none) : syncComplete (startEnable s) = { s with
    ctrla := { s.ctrla with enable := true }, enEff := true, modeLocked := true,
    hist := s.hist ++ [.grant (pers s.ctrla.mode)] } := by
  cases s; cases hi; rfl

theorem completed_reset (hi : s.syncOp = .none) (hg : s.enEff = false) (hc : s.cmdPending = none) :
    syncComplete (startReset s) = { s with
      ctrla := {}, ctrlb := {}, baud := 0#16, addr := {}, enEff := false, modeLocked := false,
      hist := s.hist ++ [.engReset] } := by
  cases s; cases hi; cases hg; cases hc; rfl

theorem completed_command (role : Role) (code : BitVec 2) (hi : s.syncOp = .none) (hc : s.cmdPending = none) :
    syncComplete { s with cmdPending := some (role, code), syncOp := .cmd } =
      { s with hist := s.hist ++ [.cmd role code] } := by
  cases s; cases hi; cases hc; rfl

theorem syncComplete_idle (s : State) : (syncComplete s).syncBusy = false := by
  rw [State.syncBusy, syncComplete_syncOp]; rfl

/-! The waits -/

/-- SYNC steps before the first poll, which therefore succeeds (R121). -/
theorem waitSync_expands (s : State) : Expands .waitSync 0 {} [.sync, .seq, .seq] 1 1 s (syncComplete s) := by
  refine .sync (by decide) (.readStatus rfl fun e => .polled rfl ?_ (.done le_rfl rfl))
  exact (statusWord_bit15 _ e).trans (syncComplete_idle s)

/-- SYNC completes the reset before the first poll, which therefore succeeds (R122). -/
theorem waitReset_expands (hp : s.syncOp = .reset) :
    Expands .waitReset 0 {} [.sync, .seq, .seq, .seq] 2 1 s (syncComplete s) := by
  refine .sync (by decide) (.readCtrla rfl (.readStatus rfl fun e => .polled rfl ?_ (.done le_rfl rfl)))
  have swrst : (syncComplete s).ctrla.swrst = false := by rw [syncComplete, hp, completeReset_eq]
  exact Bool.or_eq_false_iff.2 ⟨(wSwrst_ctrlaWord _).trans swrst, (statusWord_bit15 _ e).trans (syncComplete_idle s)⟩

/-! Enable and disable -/

/-- The disabling write and its wait, by the word written (R123, R125). -/
theorem exec_disableWord (h : s.Live) (hi : s.syncOp = .none) (he : s.ctrla.enable = true) :
    exec (.wrCtrla (ctrlaWord s.ctrla &&& 0xFFFFFFFC#32)) s = .next (startDisable s) := by
  have fields := ctrlaOf_disableWord s.ctrla
  rw [exec_wrCtrla_idle h hi, writeCtrla_disable (congrArg CtrlA.swrst fields) he (congrArg CtrlA.enable fields)]

theorem exec_enableWord (h : s.Live) (hi : s.syncOp = .none) (hr : s.ctrla.swrst = false)
    (he : s.ctrla.enable = false) (hm : pers s.ctrla.mode ≠ .none) :
    exec (.wrCtrla ((ctrlaWord s.ctrla ||| 0x00000002#32) &&& 0xFFFFFFFE#32)) s = .next (startEnable s) := by
  have fields : ctrlaOf ((ctrlaWord s.ctrla ||| 0x00000002#32) &&& 0xFFFFFFFE#32) = { s.ctrla with enable := true } := by
    rw [ctrlaOf_enableWord, ← hr]
  rw [exec_wrCtrla_idle h hi, writeCtrla_enables fields hr he hm]

/-- R125. -/
theorem disable_expands (hi : s.syncOp = .none) (he : s.ctrla.enable = true) :
    Expands .disable 0 {} waitedWrite 2 1 s { s with
      ctrla := { s.ctrla with enable := false }
      enEff := false
      hist := s.hist ++ [.release (pers s.ctrla.mode)] } :=
  .readCtrla rfl <| .write rfl rfl (fun h => exec_disableWord h hi he) rfl rfl <|
    .call rfl (waitSync_expands _) (.done le_rfl (completed_disable hi))

/-- R124. -/
theorem enable_expands (hi : s.syncOp = .none) (hr : s.ctrla.swrst = false) (he : s.ctrla.enable = false)
    (hm : pers s.ctrla.mode ≠ .none) :
    Expands .enable 0 {} waitedWrite 2 1 s { s with
      ctrla := { s.ctrla with enable := true }
      enEff := true
      modeLocked := true
      hist := s.hist ++ [.grant (pers s.ctrla.mode)] } :=
  .readCtrla rfl <| .write rfl rfl (fun h => exec_enableWord h hi hr he hm) rfl rfl <|
    .call rfl (waitSync_expands _) (.done le_rfl (completed_enable hi))

end

/-- Settles O47: the two requests, run from the idle sequencer. -/
theorem enableAndDisableRequests : Obligations.EnableAndDisableRequests := by
  intro s h hs hi hf
  refine ⟨fun he hm hsch => ?_, fun he hsch => ?_⟩
  · obtain ⟨ws, -, e⟩ := (enable_expands hi (hs.idle_swrst (by rw [hi]; nofun)) he hm).run h hsch
    exact ⟨ws, _, by rw [hsch] at e; exact e⟩
  · obtain ⟨ws, -, e⟩ := (disable_expands hi he).run h hsch
    exact ⟨ws, _, by rw [hsch] at e; exact e⟩

/-! The software reset (R123) -/

/-- The block after `SEQ_RESET`: POSTRESET, with the release of what was granted and the engine reset in the history. -/
def State.afterReset (s : State) : State := { s with
  ctrla := {}
  ctrlb := {}
  baud := 0#16
  addr := {}
  enEff := false
  modeLocked := false
  hist := s.hist ++ (if s.grant = .none then [] else [.release s.grant]) ++ [.engReset] }

section
variable {s : State}

theorem exec_resetWord (h : s.Live) (hi : s.syncOp = .none) :
    exec (.wrCtrla 0x00000001#32) s = .next (startReset s) := by
  rw [exec_wrCtrla_idle h hi, writeCtrla_reset rfl]

/-- The last two lines of the reset, on a disabled block. -/
theorem resetWord_expands (l : Locals) (hi : s.syncOp = .none) (hg : s.enEff = false) (hc : s.cmdPending = none) :
    Expands .reset 4 l [.seq, .seq, .sync, .seq, .seq, .seq] 2 1 s { s with
      ctrla := {}, ctrlb := {}, baud := 0#16, addr := {}, enEff := false, modeLocked := false,
      hist := s.hist ++ [.engReset] } :=
  .write rfl rfl (fun h => exec_resetWord h hi) rfl rfl <|
    .call rfl (waitReset_expands rfl) (.done le_rfl (completed_reset hi hg hc))

theorem reset_expands (hs : s.Inv) (hi : s.syncOp = .none) :
    ∃ m d, Expands .reset 0 {} (resetTurns s.ctrla.enable) m d s s.afterReset := by
  have hc := hs.idle_cmd hi
  have bit : (ctrlaWord s.ctrla).getLsbD 1 = s.ctrla.enable := wEnable_ctrlaWord s.ctrla
  cases he : s.ctrla.enable with
  | false =>
    have hg : s.enEff = false := (hs.i2 hi).trans he
    refine ⟨_, _, .readCtrla rfl <| .skipped rfl (congrArg not (bit.trans he)) <|
      (resetWord_expands _ hi hg hc).cast rfl ?_⟩
    rw [State.afterReset, grant_none_of_enEff hg, if_pos rfl, List.append_nil]
  | true =>
    have hg : s.enEff = true := (hs.i2 hi).trans he
    have last := resetWord_expands (s := { s with
      ctrla := { s.ctrla with enable := false }, enEff := false,
      hist := s.hist ++ [.release (pers s.ctrla.mode)] }) { a := ctrlaWord s.ctrla } hi rfl hc
    refine ⟨_, _, .readCtrla rfl <| .notSkipped rfl (congrArg not (bit.trans he)) <|
      .write rfl rfl (fun h => exec_disableWord h hi he) rfl rfl <|
      .call rfl (waitSync_expands _) ((completed_disable hi).symm ▸ last.cast rfl ?_)⟩
    rw [State.afterReset, grant_of_enEff hg, if_neg (hs.i4 hg)]

end

/-- Settles O48: the request, run from the idle sequencer; the cleared MODE selects no personality. -/
theorem resetRequestReachesPostreset : Obligations.ResetRequestReachesPostreset := by
  intro s h hs hi hf hsch
  obtain ⟨m, d, expands⟩ := reset_expands hs hi
  obtain ⟨ws, -, e⟩ := expands.run h hsch
  exact ⟨_, ws, _, e, rfl, seqState_postreset hi rfl rfl rfl, rfl⟩

end Sys2Proof.Machine
end

section
/-! The requests that configure, and the front-ends (R126 to R137): an initialisation is a reset and the writes of a
disabled, unlocked block; a `begin` is an initialisation and an enable; a setter is a disable, one write and an enable. -/

namespace Sys2Proof.Machine

/-! The writes of a disabled block store what the word holds -/

section
variable {s : State} {d : Word}

theorem exec_storesA {c : CtrlA} (h : s.Live) (hi : s.syncOp = .none) (hs : s.ctrla.swrst = false)
    (he : s.ctrla.enable = false) (hd : ctrlaOf d = c) (hr : c.swrst = false) (hw : c.enable = false)
    (hm : s.modeLocked = true → c.mode = s.ctrla.mode) : exec (.wrCtrla d) s = .next { s with ctrla := c } := by
  rw [exec_wrCtrla_idle h hi, writeCtrla_stores hd hr hw hm hs he]

theorem exec_storesB {b : CtrlB} (h : s.Live) (hi : s.syncOp = .none) (he : s.ctrla.enable = false)
    (hd : d = ctrlbWord b) : exec (.wrCtrlb d) s = .next { s with ctrlb := b } := by
  rw [hd, exec_wrCtrlb_drops h hi (.inl (wCmd_ctrlbWord b)), ctrlbAfter_disabled he, ctrlbOf_ctrlbWord]

theorem exec_storesBaud (h : s.Live) (hi : s.syncOp = .none) (he : s.ctrla.enable = false) (b : BitVec 16) :
    exec (.wrBaud (fieldAt b 0)) s = .next { s with baud := b } := by
  rw [exec_wrBaud_idle h hi, he, show wBaud (fieldAt b 0) = b from wBaud_baudWord b]; rfl

theorem exec_storesAddr (h : s.Live) (hi : s.syncOp = .none) (he : s.ctrla.enable = false) (r : AddrReg) :
    exec (.wrAddr (fieldAt r.addr 1 ||| flagAt r.gencen 0)) s = .next { s with addr := r } := by
  rw [exec_wrAddr_idle h hi, he, initI2csAddr_eq, wGencen_addrWord, wAddr_addrWord]; rfl

end

/-! The four initialisations (R126 to R129) -/

/-- The block after an initialisation: CONFIGURED with the given registers. -/
def State.afterInit (a : CtrlA) (b : CtrlB) (baud : BitVec 16) (adr : AddrReg) (s : State) : State :=
  { s.afterReset with ctrla := a, ctrlb := b, baud := baud, addr := adr }

/-- Request `r` resets the block and writes it `writes` times, which leaves it configured with the given registers. -/
def Initialises (r : Request) (writes : Nat) (a : CtrlA) (b : CtrlB) (baud : BitVec 16) (adr : AddrReg) : Prop :=
  (a.swrst = false ∧ a.enable = false ∧ pers a.mode ≠ .none) ∧
  ∀ s : State, s.Inv → s.syncOp = .none → ∃ m d,
    Expands r 0 {} (.seq :: (resetTurns s.ctrla.enable ++ List.replicate writes Turn.seq)) m d s
      (s.afterInit a b baud adr)

theorem initUart_initialises (sampr : BitVec 3) (pads : BitVec 6) (form : BitVec 4) (dord : Bool)
    (chsize : BitVec 3) (sbmode pmode : Bool) (baud : BitVec 16) :
    Initialises (.initUart sampr pads form dord chsize sbmode pmode baud) 3
      { mode := 1#3, sampr := sampr, pads := pads, form := form, dord := dord }
      { chsize := chsize, sbmode := sbmode, pmode := pmode } baud {} := by
  refine ⟨⟨rfl, rfl, nofun⟩, fun s hs hi => ?_⟩
  obtain ⟨m, d, reset⟩ := reset_expands hs hi
  exact ⟨_, _, .call rfl reset <|
    .write rfl rfl (fun h => exec_storesA h hi rfl rfl
      (c := { mode := 1#3, sampr := sampr, pads := pads, form := form, dord := dord })
      (by rw [initUartCtrla_eq, ctrlaOf_ctrlaWord]) rfl rfl nofun) rfl rfl <|
    .write rfl rfl (fun h => exec_storesB h hi rfl (b := { chsize := chsize, sbmode := sbmode, pmode := pmode })
      (initUartCtrlb_eq _ _ _)) rfl rfl <|
    .write rfl rfl (fun h => exec_storesBaud h hi rfl _) rfl rfl <| .done le_rfl rfl⟩

theorem initSpi_initialises (st : SpiSettings) : Initialises (.initSpi st) 3
    { mode := 3#3, pads := st.pads, cpha := st.cpha, cpol := st.cpol, dord := st.dord } { chsize := st.chsize }
    st.baudval {} := by
  refine ⟨⟨rfl, rfl, nofun⟩, fun s hs hi => ?_⟩
  obtain ⟨m, d, reset⟩ := reset_expands hs hi
  exact ⟨_, _, .call rfl reset <|
    .write rfl rfl (fun h => exec_storesA h hi rfl rfl
      (c := { mode := 3#3, pads := st.pads, cpha := st.cpha, cpol := st.cpol, dord := st.dord })
      (by rw [initSpiCtrla_eq, ctrlaOf_ctrlaWord]) rfl rfl nofun) rfl rfl <|
    .write rfl rfl (fun h => exec_storesB h hi rfl (b := { chsize := st.chsize }) (initSpiCtrlb_eq _)) rfl rfl <|
    .write rfl rfl (fun h => exec_storesBaud h hi rfl _) rfl rfl <| .done le_rfl rfl⟩

theorem initI2cm_initialises (baud : BitVec 16) : Initialises (.initI2cm baud) 2 { mode := 5#3 } {} baud {} := by
  refine ⟨⟨rfl, rfl, nofun⟩, fun s hs hi => ?_⟩
  obtain ⟨m, d, reset⟩ := reset_expands hs hi
  have word : ctrlaOf 0x00000014#32 = { mode := 5#3 } := by decide
  exact ⟨_, _, .call rfl reset <|
    .write rfl rfl (fun h => exec_storesA h hi rfl rfl word rfl rfl nofun) rfl rfl <|
    .write rfl rfl (fun h => exec_storesBaud h hi rfl _) rfl rfl <| .done le_rfl rfl⟩

theorem initI2cs_initialises (adr : AddrReg) :
    Initialises (.initI2cs adr.addr adr.gencen) 2 { mode := 4#3 } {} 0#16 adr := by
  refine ⟨⟨rfl, rfl, nofun⟩, fun s hs hi => ?_⟩
  obtain ⟨m, d, reset⟩ := reset_expands hs hi
  have word : ctrlaOf 0x00000010#32 = { mode := 4#3 } := by decide
  exact ⟨_, _, .call rfl reset <|
    .write rfl rfl (fun h => exec_storesA h hi rfl rfl word rfl rfl nofun) rfl rfl <|
    .write rfl rfl (fun h => exec_storesAddr h hi rfl adr) rfl rfl <| .done le_rfl rfl⟩

/-- Settles O53: each of the four is an initialisation with the registers as given. -/
theorem initRequestsConfigureTheBlock : Obligations.InitRequestsConfigureTheBlock := by
  intro s r writes a b baud adr h hs hi hf hr hsch
  have init : Initialises r writes a b baud adr := by
    rcases hr with ⟨sampr, pads, form, dord, chsize, sbmode, pmode, rfl, rfl, rfl, rfl, rfl⟩ |
      ⟨st, rfl, rfl, rfl, rfl, rfl, rfl⟩ | ⟨rfl, rfl, rfl, rfl, rfl⟩ | ⟨rfl, rfl, rfl, rfl, rfl⟩
    · exact initUart_initialises ..
    · exact initSpi_initialises st
    · exact initI2cm_initialises baud
    · exact initI2cs_initialises adr
  obtain ⟨⟨-, he, hm⟩, expands⟩ := init
  obtain ⟨m, d, expands⟩ := expands s hs hi
  obtain ⟨ws, -, e⟩ := expands.run h hsch
  exact ⟨_, ws, _, e, rfl, seqState_configured hi he rfl hm, rfl⟩

/-! The front-ends (R134 to R137) -/

/-- The block after a `begin`: ENABLED and granted, with the given registers. -/
def State.afterBegin (a : CtrlA) (b : CtrlB) (baud : BitVec 16) (adr : AddrReg) (s : State) : State := { s with
  ctrla := a
  ctrlb := b
  baud := baud
  addr := adr
  enEff := true
  modeLocked := true
  hist := s.hist ++ (if s.grant = .none then [] else [.release s.grant]) ++ [.engReset, .grant (pers a.mode)] }

section
variable {s : State} {r r' : Request} {writes : Nat} {a : CtrlA} {b : CtrlB} {baud : BitVec 16} {adr : AddrReg}

theorem begin_expands (hr : ∀ l i, expansion l i r = [.call r', .call .enable])
    (init : Initialises r' writes a b baud adr) (hs : s.Inv) (hi : s.syncOp = .none) : ∃ m d,
    Expands r 0 {} (List.replicate 2 Turn.seq ++ (resetTurns s.ctrla.enable ++
        (List.replicate (writes + 1) Turn.seq ++ waitedWrite))) m d s
      (s.afterBegin { a with enable := true } b baud adr) := by
  obtain ⟨⟨hsw, he, hm⟩, expands⟩ := init
  obtain ⟨m, d, expands⟩ := expands s hs hi
  have lines : lineCount r = 2 := by rw [← expansion_length {} false, hr]; rfl
  have enable := enable_expands (s := s.afterInit a b baud adr) hi hsw he hm
  refine ⟨_, _, (expands.call (k := 0) (by rw [hr]; rfl)
    (enable.call (by rw [hr]; rfl) (.done lines.le rfl))).cast ?_ ?_⟩
  · simp [List.replicate_succ']
  · simp [State.afterInit, State.afterReset, State.afterBegin]

end

/-- The `begin` of the SPI front-end sets its latch after the configuration (R135). -/
theorem beginSpi_expands {s : State} {st : SpiSettings} (hs : s.Inv) (hi : s.syncOp = .none)
    (hl : s.spiInited = false) (hd : st = Config.spiDefaults) : ∃ m d,
    Expands .beginSpi 0 {} (List.replicate 4 Turn.seq ++ (resetTurns s.ctrla.enable ++
        (List.replicate 4 Turn.seq ++ (waitedWrite ++ [Turn.seq])))) m d s
      { s.afterBegin { enable := true, mode := 3#3, pads := st.pads, cpha := st.cpha, cpol := st.cpol, dord := st.dord }
        { chsize := st.chsize } st.baudval {} with spiInited := true } := by
  subst hd
  obtain ⟨m, d, config⟩ := begin_expands (r := .configSpi Config.spiDefaults) (fun _ _ => rfl)
    (initSpi_initialises Config.spiDefaults) hs hi
  exact ⟨_, _, (Expands.notSkipped rfl hl (config.call rfl (.latch rfl (.done le_rfl rfl)))).cast
    (by simp [List.replicate_succ]) rfl⟩

/-- Settles O49: the three without a transaction skip all their lines, a `begin` is an initialisation and an enable, an
`end` a reset. -/
theorem frontEndRequests : Obligations.FrontEndRequests := by
  intro s r h hf
  refine ⟨fun hsch hr => ?skipped, fun calls writes latches inited a b baud adr hs hi hr hsch => ?begins,
    fun calls latches inited hs hi hr hsch => ?ends⟩
  case skipped =>
    have expands : Expands r 0 {} [.seq] 0 0 s s := by
      rcases hr with rfl | ⟨rfl, hl⟩ | ⟨rfl, hl⟩
      · exact .skipped rfl rfl (.done le_rfl rfl)
      · exact .skipped rfl hl (.done le_rfl rfl)
      · exact .skipped rfl (congrArg not hl) (.done le_rfl rfl)
    obtain ⟨ws, hw, e⟩ := expands.run h hsch
    rw [List.length_eq_zero_iff.1 hw, List.append_nil, hsch] at e
    exact e
  case begins =>
    have expands : a.enable = true ∧ ∃ m d, Expands r 0 {}
        (List.replicate calls Turn.seq ++ (resetTurns s.ctrla.enable ++
          (List.replicate (writes + 1) Turn.seq ++ (waitedWrite ++ List.replicate latches Turn.seq)))) m d s
          { s.afterBegin a b baud adr with spiInited := inited } := by
      rcases hr with ⟨st, ⟨rfl, rfl, rfl, rfl⟩ | ⟨rfl, hd, hl, rfl, rfl, rfl⟩, rfl, rfl, rfl, rfl, rfl⟩ |
        ⟨sampr, pads, form, dord, chsize, sbmode, pmode, rfl, rfl, rfl, rfl, rfl, rfl, rfl, rfl⟩ |
        ⟨rfl, rfl, rfl, rfl, rfl, rfl, rfl, rfl⟩ | ⟨rfl, rfl, rfl, rfl, rfl, rfl, rfl, rfl⟩
      · exact ⟨rfl, begin_expands (fun _ _ => rfl) (initSpi_initialises st) hs hi⟩
      · exact ⟨rfl, beginSpi_expands hs hi hl hd⟩
      · exact ⟨rfl, begin_expands (fun _ _ => rfl) (initUart_initialises ..) hs hi⟩
      · exact ⟨rfl, begin_expands (fun _ _ => rfl) (initI2cm_initialises baud) hs hi⟩
      · exact ⟨rfl, begin_expands (fun _ _ => rfl) (initI2cs_initialises adr) hs hi⟩
    obtain ⟨he, m, d, expands⟩ := expands
    obtain ⟨ws, -, e⟩ := expands.run h hsch
    exact ⟨_, ws, _, e, rfl, seqState_enabled hi he, grant_of_enEff rfl⟩
  case ends =>
    obtain ⟨m, d, reset⟩ := reset_expands hs hi
    have expands : ∃ m d, Expands r 0 {} (List.replicate calls Turn.seq ++ (resetTurns s.ctrla.enable ++
        List.replicate latches Turn.seq)) m d s { s.afterReset with spiInited := inited } := by
      rcases hr with ⟨rfl, hl, rfl, rfl, rfl⟩ | ⟨rfl, rfl, rfl, rfl⟩
      · exact ⟨_, _, .cast (.notSkipped rfl (congrArg not hl) (reset.call rfl (.latch rfl (.done le_rfl rfl)))) rfl rfl⟩
      · exact ⟨_, _, .cast (reset.call rfl (.done le_rfl rfl)) rfl rfl⟩
    obtain ⟨m, d, expands⟩ := expands
    obtain ⟨ws, -, e⟩ := expands.run h hsch
    exact ⟨_, ws, _, e, rfl, seqState_postreset hi rfl rfl rfl⟩

end Sys2Proof.Machine
end

section
/-! The setters of an enabled block and the requests of the I2C roles (R131 to R133, R139 to R142): a setter is a disable,
one write and an enable; a request of a role begins with the check that MODE is one of I2C. -/

namespace Sys2Proof.Machine

section
variable {s : State} {r : Request} {l : Locals}

/-! The setters (R131 to R133) -/

/-- The last line of a setter: the enable of the block that its first has disabled. -/
theorem reenable_expands {c : CtrlA} (baud : BitVec 16) (lines : lineCount r = 4)
    (hl : (expansion l s.spiInited r)[3]? = some (.call .enable)) (hs : s.Inv) (hi : s.syncOp = .none)
    (he : s.ctrla.enable = true) (hr : c.swrst = false) (hce : c.enable = true) (hm : c.mode = s.ctrla.mode) :
    Expands r 3 l (.seq :: waitedWrite) 2 1
      { s with ctrla := { c with enable := false }, baud := baud, enEff := false,
               hist := s.hist ++ [.release (pers s.ctrla.mode)] }
      { s with ctrla := c, baud := baud,
               hist := s.hist ++ [.release (pers s.ctrla.mode), .grant (pers s.ctrla.mode)] } := by
  obtain ⟨locked, granted⟩ := hs.i3 he
  have effective : s.enEff = true := (hs.i2 hi).trans he
  have enable := enable_expands (s := { s with
    ctrla := { c with enable := false }, baud := baud, enEff := false,
    hist := s.hist ++ [.release (pers s.ctrla.mode)] }) hi hr rfl (hm ▸ granted)
  refine .cast (enable.call (by exact hl) (.done lines.le rfl)) rfl ?_
  obtain ⟨swrst, enable⟩ := c
  cases hce
  simp [← hm, effective, locked]

/-- A setter of CTRLA writes back the image it read, with its own fields changed. -/
theorem setCtrla_expands {word : Word → Word} {c : CtrlA}
    (hr : ∀ l i, expansion l i r =
      [.call .disable, .read .a .rdCtrla, .txn (.wrCtrla (word l.a)), .call .enable])
    (hw : ctrlaOf (word (ctrlaWord { s.ctrla with enable := false })) = { c with enable := false })
    (hs : s.Inv) (hi : s.syncOp = .none) (he : s.ctrla.enable = true) (hc : c.swrst = false) (hce : c.enable = true)
    (hm : c.mode = s.ctrla.mode) : ∃ m d, Expands r 0 {}
      (List.replicate 4 Turn.seq ++ Turn.sync :: (List.replicate 8 Turn.seq ++ [.sync, .seq, .seq])) m d s
      { s with ctrla := c, hist := s.hist ++ [.release (pers s.ctrla.mode), .grant (pers s.ctrla.mode)] } := by
  have lines : lineCount r = 4 := by rw [← expansion_length {} false, hr]; rfl
  exact ⟨_, _, .cast ((disable_expands hi he).call (k := 0) (by rw [hr]; rfl) <|
    .readCtrla (k := 1) (by rw [hr]; rfl) <|
    .write (k := 2) (i := .wrCtrla (word (ctrlaWord { s.ctrla with enable := false }))) (by rw [hr]; rfl) rfl
      (fun h => exec_storesA h hi (hs.idle_swrst (by rw [hi]; nofun)) rfl hw hc rfl fun _ => hm) rfl rfl <|
    reenable_expands s.baud lines (by rw [hr]; rfl) hs hi he hc hce hm) rfl rfl⟩

end

/-- Settles O54: the CTRLA setters by the fields of the word they write, the divisor's by its write of BAUD. -/
theorem protectedSettersMutateWhileDisabled : Obligations.ProtectedSettersMutateWhileDisabled := by
  intro s r before between a baud h hs hi hf he hr hsch
  have hsw : s.ctrla.swrst = false := hs.idle_swrst (by rw [hi]; nofun)
  have expands : ∃ m d, Expands r 0 {}
      (List.replicate before Turn.seq ++ Turn.sync :: (List.replicate between Turn.seq ++ [.sync, .seq, .seq])) m d s
      { s with ctrla := a, baud := baud,
               hist := s.hist ++ [.release (pers s.ctrla.mode), .grant (pers s.ctrla.mode)] } := by
    rcases hr with ⟨v, rfl, rfl, rfl, rfl, rfl⟩ | ⟨cpol, cpha, rfl, rfl, rfl, rfl, rfl⟩ |
      ⟨divisor, rfl, hd, rfl, rfl, rfl, rfl⟩
    · refine setCtrla_expands (word := fun w => (w &&& 0xBFFFFFFC#32) ||| flagAt v 30) (fun _ _ => rfl) ?_
        hs hi he hsw he rfl
      rw [ctrlaOf_dordWord, ← hsw]
    · refine setCtrla_expands
        (word := fun w => (w &&& 0xCFFFFFFC#32) ||| flagAt cpha 28 ||| flagAt cpol 29) (fun _ _ => rfl) ?_
        hs hi he hsw he rfl
      rw [ctrlaOf_clkmodeWord, ← hsw]
    · exact ⟨_, _, .cast (.notSkipped rfl (beq_eq_false_iff_ne.2 hd) <| (disable_expands hi he).call rfl <|
        .write rfl rfl (fun h => exec_storesBaud h hi rfl _) rfl rfl <|
        reenable_expands _ rfl rfl hs hi he hsw he rfl) rfl rfl⟩
  obtain ⟨m, d, expands⟩ := expands
  have turns : s.schedule.length = 17 := by
    rcases hr with ⟨v, -, rfl, rfl, -⟩ | ⟨cpol, cpha, -, rfl, rfl, -⟩ | ⟨divisor, -, -, rfl, rfl, -⟩ <;>
      rw [hsch] <;> rfl
  obtain ⟨ws, -, e⟩ := expands.run h hsch
  exact ⟨ws, _, turns ▸ e⟩

/-! The role check and what follows it (R139 to R142) -/

section
variable {s : State}

theorem showsI2c_iff (c : CtrlA) : showsI2c (ctrlaWord c) = true ↔ c.mode = 4#3 ∨ c.mode = 5#3 := by
  rw [showsI2c, wMode_ctrlaWord, Bool.or_eq_true, beq_iff_eq, beq_iff_eq]

theorem roleCheck_expands (hm : s.ctrla.mode = 4#3 ∨ s.ctrla.mode = 5#3) :
    Expands .roleCheck 0 {} [.seq, .seq] 1 0 s s :=
  .readCtrla rfl <| .accepted rfl (congrArg not ((showsI2c_iff _).2 hm)) <| .done le_rfl rfl

/-- A CTRLB write without a command that has CHSIZE, SBMODE and PMODE as they are sets ACKACT alone, enabled or not. -/
theorem exec_setsAckact {d : Word} {v : Bool} (h : s.Live) (hi : s.syncOp = .none) (hc : wCmd d = 0#2)
    (hd : ctrlbOf d = { s.ctrlb with ackact := v }) :
    exec (.wrCtrlb d) s = .next { s with ctrlb := { s.ctrlb with ackact := v } } := by
  rw [exec_wrCtrlb_drops h hi (.inl hc), ctrlbAfter_keeps hd]

theorem exec_cmdWord {role : Role} {code : BitVec 2} (h : s.Live) (hi : s.syncOp = .none)
    (hg : roleOf s.grant = some role) (hc : code ≠ 0#2) :
    exec (.wrCtrlb ((ctrlbWord s.ctrlb &&& 0xFFFCFFFF#32) ||| fieldAt code 16)) s =
      .next { s with cmdPending := some (role, code), syncOp := .cmd } := by
  rw [exec_wrCtrlb_latches h hi (by rw [wCmd_cmdWord]; exact hc) hg, wCmd_cmdWord,
    ctrlbAfter_keeps (v := s.ctrlb.ackact) (ctrlbOf_cmdWord _ code)]

theorem mode_of_roleOf {role : Role} (hg : roleOf s.grant = some role) :
    s.ctrla.mode = 4#3 ∨ s.ctrla.mode = 5#3 := by
  have modes : ∀ m : BitVec 3, roleOf (pers m) ≠ none → m = 4#3 ∨ m = 5#3 := by decide
  refine modes _ fun none => ?_
  unfold State.grant at hg
  split at hg
  · exact nomatch none.symm.trans hg
  · exact nomatch hg

end

/-- Settles O52: the words written carry no command and the bits of CTRLB as they are but for ACKACT. -/
theorem ackAndNackRequests : Obligations.AckAndNackRequests := by
  intro s r v h hi hf hm hr hsch
  have expands : Expands r 0 {} (List.replicate 5 .seq) 2 0 s { s with ctrlb := { s.ctrlb with ackact := v } } := by
    rcases hr with ⟨rfl, rfl⟩ | ⟨rfl, rfl⟩
    · exact (roleCheck_expands hm).call rfl <| .readCtrlb rfl <|
        .write rfl rfl (fun h => exec_setsAckact (v := false) h hi (wCmd_and _ _ (by decide)) (ctrlbOf_ackWord _)) rfl rfl
          (.done le_rfl rfl)
    · have command : wCmd ((ctrlbWord s.ctrlb &&& 0xFFF8FFFF#32) ||| 0x00040000#32) = 0#2 := by
        rw [wCmd_or, wCmd_and _ _ (by decide)]; decide
      exact (roleCheck_expands hm).call rfl <| .readCtrlb rfl <|
        .write rfl rfl (fun h => exec_setsAckact (v := true) h hi command (ctrlbOf_nackWord _)) rfl rfl
          (.done le_rfl rfl)
  obtain ⟨ws, -, e⟩ := expands.run h hsch
  exact ⟨ws, by rw [hsch] at e; exact e⟩

/-- Settles O55: the word written holds the code and the bits of CTRLB as they are; SYNC delivers the code. -/
theorem commandRequestDeliversTheCommand : Obligations.CommandRequestDeliversTheCommand := by
  intro s role code h hs hi hf hg hc hsch
  have granted : roleOf s.grant = some role := by
    rcases hg with ⟨hg, rfl⟩ | ⟨hg, rfl⟩ <;> rw [hg] <;> rfl
  have expands : Expands (.command code) 0 {} (List.replicate 6 .seq ++ [.sync, .seq, .seq]) 3 1 s
      { s with hist := s.hist ++ [.cmd role code] } :=
    (roleCheck_expands (mode_of_roleOf granted)).call rfl <| .readCtrlb rfl <|
      .write rfl rfl (fun h => exec_cmdWord h hi granted hc) rfl rfl <|
      .call rfl (waitSync_expands _) (.done le_rfl (completed_command role code hi (hs.idle_cmd hi)))
  obtain ⟨ws, -, e⟩ := expands.run h hsch
  exact ⟨ws, _, by rw [hsch] at e; exact e⟩

/-! The request with a result, and the one that is refused -/

section
variable {s : State}

/-- A read of CTRLA that is not the last line of its expansion. -/
theorem runsTurn_readCtrla {f : Frame} {rest : List Frame} (h : s.Live)
    (hl : (expansion f.locals s.spiInited f.req)[f.upc]? = some (.read .a .rdCtrla))
    (more : f.upc + 1 < lineCount f.req) :
    RunsTurn .seq 1 0 (s.framed (f :: rest))
      (s.framed ({ f.next with locals := { f.locals with a := ctrlaWord s.ctrla } } :: rest)) := by
  have read := runsTurn_read (w := ctrlaWord s.ctrla) (rest := rest) h hl fun us rs n =>
    exec_rdCtrla_live ((h.framed _).placed us rs n)
  rwa [goOn_more more] at read

/-- The role check of a block in no I2C mode ends the request `g` that called it (R139, R120). -/
theorem roleCheck_refuses {g : Frame} {rest : List Frame} (h : s.Live) (hn : g.nested = false)
    (wrong : showsI2c (ctrlaWord s.ctrla) = false) :
    Runs [.seq, .seq] 1 0 (s.framed ({ req := .roleCheck, nested := true } :: g :: rest))
      { s with frames := rest, refused := some .role, outcome := some (.refused .role) } := by
  refine (runsTurn_readCtrla h rfl (by decide)).then (RunsTurn.runs ?_)
  refine runsTurn_line (ln := .refuseIf (!showsI2c (ctrlaWord s.ctrla)) .role) h rfl fun us rs n => ?_
  rw [wrong]
  simp [runLine, State.refuse, State.endRequest, State.placed, State.framed, Frame.next, dropRequest,
    h.noRefusal, hn]

end

/-- Settles O50: the first line reads CTRLA, the second ends the request with MODE compared. -/
theorem isMasterReadsTheMode : Obligations.IsMasterReadsTheMode := by
  intro s h hf hsch
  have read : RunsTurn .seq 1 0 (s.framed ({ req := .isMaster } :: s.frames))
      (s.framed ({ req := .isMaster, upc := 1, locals := { a := ctrlaWord s.ctrla } } :: s.frames)) :=
    runsTurn_readCtrla h rfl (by decide)
  have result : RunsTurn .seq 0 0
      (s.framed ({ req := .isMaster, upc := 1, locals := { a := ctrlaWord s.ctrla } } :: s.frames))
      { s with outcome := some (.ok (some (wMode (ctrlaWord s.ctrla) == 5#3))) } :=
    runsTurn_line h rfl fun us rs n => rfl
  obtain ⟨ws, hw, e⟩ := ((runsTurn_request h .isMaster).then (read.then result.runs)).whole hsch
  obtain ⟨w, rfl⟩ := List.length_eq_one_iff.1 hw
  rw [wMode_ctrlaWord] at e
  exact ⟨w, e⟩

/-- Settles O51: the check is the first call of each of the three, and it refuses. -/
theorem wrongRoleIsRefused : Obligations.WrongRoleIsRefused := by
  intro s r h hf h4 h5 hr hsch
  have first : (expansion {} s.spiInited r)[0]? = some (.call .roleCheck) := by
    rcases hr with rfl | rfl | ⟨code, rfl⟩ <;> rfl
  have wrong : showsI2c (ctrlaWord s.ctrla) = false :=
    Bool.eq_false_iff.2 fun shown => ((showsI2c_iff _).1 shown).elim h4 h5
  have call : RunsTurn .seq 0 0 (s.framed ({ req := r } :: s.frames))
      (s.framed ({ req := .roleCheck, nested := true } :: { req := r } :: s.frames)) :=
    runsTurn_line (ln := .call .roleCheck) h first fun _ _ _ => rfl
  obtain ⟨ws, hw, e⟩ := ((runsTurn_request h r).then (call.then (roleCheck_refuses h rfl wrong))).whole hsch
  obtain ⟨w, rfl⟩ := List.length_eq_one_iff.1 hw
  exact ⟨w, e⟩

end Sys2Proof.Machine
end
